-- ==== Sys2Proof/Word.lean ====
section
/-! DEFINITION. The words of PIFBLK: bytes, accessory blocks and port indices (spec 00_scope.md R5, R7). -/

namespace Sys2Proof

/-- A byte: one element of the command buffer, 8 bits (R7). -/
abbrev Byte := BitVec 8

/-- The number of ports, `NPORTS` (R5). -/
abbrev nPorts : Nat := 4

/-- A port index `p`, 0 to 3 (10_state.md R15). -/
abbrev Port := Fin nPorts

/-- The length of an accessory block in bytes, `BLOCK_LEN` (R5). -/
abbrev blockLen : Nat := 32

/-- One accessory block, the fixed 32-byte unit of a pak transfer (R5, 20_memory.md R36). -/
abbrev Block := Vector Byte blockLen

end Sys2Proof
end

