-- ==== Sys2Proof/Config.lean ====
section
/-! DEFINITION. What the session fixes (the parameters of spec 00_scope.md R5), the types of the collaborators' calls,
and the free values: constants without a body, of which nothing can be proved. -/

namespace Sys2Proof

/-- The accessory in a port's pak slot (10_state.md R16). `noPak` is the spec's `None`. -/
inductive Pak where
  | noPak
  | mem
  | rumble
  | transfer
  | unknown
deriving DecidableEq, Repr, Inhabited

/-- One call to a collaborator (20_memory.md R36, R40, R41). -/
inductive Call where
  /-- `Backend[p].read_block(addr)` -/
  | readBlock (p : Port) (addr : BitVec 16)
  /-- `Backend[p].write_block(addr, data)` -/
  | writeBlock (p : Port) (addr : BitVec 16) (data : Block)
  /-- `WallClock()` -/
  | wallClock
  /-- `InputSource(p)` -/
  | inputSource (p : Port)
deriving DecidableEq, Repr

/-- The calendar fields of a timestamp (42_rtc_commands.md R109), in the C library's broken-down form. `year` counts
from 1900 and is negative before it, which a read of the time refuses (93_implementation_defined.md I20). -/
structure CalendarFields where
  sec  : Nat
  min  : Nat
  hour : Nat
  mday : Nat
  wday : Nat
  mon  : Nat
  year : Int
deriving DecidableEq, Repr, Inhabited

/-- `RTC_ABSENT_POLICY`: what an RTC opcode does on a port that owns no RTC (R100). -/
inductive RtcAbsentPolicy where
  | setErrorBit
  | ignore
deriving DecidableEq, Repr

/-- The parameter `Calendar` (R109): the default, or another function of the timestamp alone. -/
inductive CalendarChoice where
  | utc
  | other
deriving DecidableEq, Repr

/-- The eight opcode parameters (R5, 30_encoding.md R53). PRESUMED (L11): the source gives no number. -/
structure Opcodes where
  status         : Byte := 0x00
  controllerRead : Byte := 0x01
  pakRead        : Byte := 0x02
  pakWrite       : Byte := 0x03
  rtcStatus      : Byte := 0x06
  rtcRead        : Byte := 0x07
  rtcWrite       : Byte := 0x08
  reset          : Byte := 0xFF
deriving DecidableEq, Repr

/-- The offset parameters (R5, 30_encoding.md R54 to R58). PRESUMED (L12): the source gives none of these. The pak
address bytes are fixed by the source and are no parameters (`offAddrHi`, `offAddrLo`). -/
structure Offsets where
  typeLo    : Nat := 3
  typeHi    : Nat := 4
  status    : Nat := 5
  buttons   : Nat := 3
  pakData   : Nat := 5
  rtcBlock  : Nat := 3
  rtcData   : Nat := 4
  rtcStatus : Nat := 12
deriving DecidableEq, Repr

/-- `OFF_PAK_CRC`: the checksum stands immediately after the 32 data bytes (R56). -/
abbrev Offsets.pakCrc (o : Offsets) : Nat := o.pakData + blockLen

/-- The parameters of R5 that the source leaves open, with the spec's defaults (L11 to L15). -/
structure Config where
  opcodes            : Opcodes := {}
  offsets            : Offsets := {}
  controllerTypeCode : BitVec 16 := 0x0005
  rtcTypeCode        : BitVec 16 := 0x1000
  rtcStatusOk        : Byte := 0x00
  crcInit            : Byte := 0x00
  rtcAbsentPolicy    : RtcAbsentPolicy := .setErrorBit
  calendar           : CalendarChoice := .utc
deriving DecidableEq, Repr

/-- Every parameter at the spec's default (R5). -/
def Config.default : Config := {}

/-- Index of the error-flag byte (30_encoding.md R50). -/
abbrev offFlag : Nat := 1

/-- Index of the opcode byte (R50). -/
abbrev offOpcode : Nat := 2

/-- `OFF_ADDR_HI` (R56). -/
abbrev offAddrHi : Nat := 3

/-- `OFF_ADDR_LO` (R56). -/
abbrev offAddrLo : Nat := 4

/-! ### Free values

Constants with no body. A proof about a machine that uses one holds whatever the value is. -/

/-- What a byte of the host's memory that nobody has written reads as, by address (10_state.md section 5: "unspecified
until the host writes them"; L5). -/
opaque Config.unwrittenByte : Nat → Byte

/-- A word the input source answers, by the calls made before and the port (20_memory.md R41; I15; L17). -/
opaque Config.inputWord : List Call → Port → BitVec 32

/-- A time the wall clock answers, by the calls made before (R40; I16; L18). -/
opaque Config.wallTime : List Call → Int

/-- A block an accessory backend answers, by the calls made before, the port, its pak and the address (R36; I17;
L19). The calls before stand for the backend's own state. -/
opaque Config.backendBlock : List Call → Port → Pak → BitVec 16 → Block

/-- A calendar other than the default (R109; I18; L15). -/
opaque Config.otherCalendar : Int → CalendarFields

end Sys2Proof
end

