-- ==== Sys2Proof/Syntax.lean ====
section
/-! DEFINITION. The commands of PIFBLK: one constructor of `Instr` per row of spec/opcode_table.json. -/

namespace Sys2Proof

/-- The two entry points an invocation can name (30_encoding.md R66). -/
inductive EntryPoint where
  /-- phase 1, "command setup": handles every opcode -/
  | phase1
  /-- phase 2, "execute": acts for the controller-read opcode only -/
  | phase2
deriving DecidableEq, Repr

/-- A command at a port. The port index is passed beside the buffer (R65); the unknown opcode and the invalid block
index are what the decoder read. All other operands are bytes of the lent buffer, read when the command runs. -/
inductive Instr where
  /-- STATUS, R81 -/
  | status (p : Port)
  /-- RESET, R82 -/
  | reset (p : Port)
  /-- CONTROLLER_READ at phase 1, R83 -/
  | controllerRead (p : Port)
  /-- PAK_READ, R86 -/
  | pakRead (p : Port)
  /-- PAK_WRITE, R87 -/
  | pakWrite (p : Port)
  /-- RTC_STATUS, R101 -/
  | rtcStatus (p : Port)
  /-- RTC_READ.B0, R103 -/
  | rtcReadB0 (p : Port)
  /-- RTC_READ.B1, R104 -/
  | rtcReadB1 (p : Port)
  /-- RTC_READ.B2, R105 -/
  | rtcReadB2 (p : Port)
  /-- RTC_READ.BINV, R110 -/
  | rtcReadBinv (p : Port) (blk : Byte)
  /-- RTC_WRITE.B0, R112 -/
  | rtcWriteB0 (p : Port)
  /-- RTC_WRITE.B1, R113 -/
  | rtcWriteB1 (p : Port)
  /-- RTC_WRITE.B2, R114 -/
  | rtcWriteB2 (p : Port)
  /-- RTC_WRITE.BINV, R115 -/
  | rtcWriteBinv (p : Port) (blk : Byte)
  /-- UNKNOWN at phase 1, R88 -/
  | unknown (p : Port) (op : Byte)
  /-- CONTROLLER_READ.EXEC at phase 2, R84 -/
  | controllerReadExec (p : Port)
  /-- NOP2 at phase 2, R85 -/
  | nop2 (p : Port) (op : Byte)
  /-- CRC8, the internal operation without an opcode, R71 -/
  | crc8
deriving DecidableEq, Repr

/-- The port a command was invoked for; the checksum engine knows no port (R73). -/
def Instr.port? : Instr → Option Port
  | .status p | .reset p | .controllerRead p | .pakRead p | .pakWrite p | .rtcStatus p
  | .rtcReadB0 p | .rtcReadB1 p | .rtcReadB2 p | .rtcReadBinv p _
  | .rtcWriteB0 p | .rtcWriteB1 p | .rtcWriteB2 p | .rtcWriteBinv p _
  | .unknown p _ | .controllerReadExec p | .nop2 p _ => some p
  | .crc8 => none

end Sys2Proof
end

