-- ==== Sys2Proof/WellFormed.lean ====
section
/-! DEFINITION. Which parameters and which commands make sense (spec 00_scope.md R5, 30_encoding.md R48, R53). -/

namespace Sys2Proof

/-- The eight opcode values of R53, in the order phase 1 tests them (R80). -/
def Opcodes.all (o : Opcodes) : List Byte :=
  [o.status, o.reset, o.controllerRead, o.pakRead, o.pakWrite, o.rtcStatus, o.rtcRead, o.rtcWrite]

/-- "The opcode parameters must be pairwise distinct" (R5). -/
abbrev Opcodes.Distinct (o : Opcodes) : Prop := o.all.Nodup

/-- Every offset parameter lies in the payload, which starts at index 3 (20_memory.md R48). -/
abbrev Offsets.InPayload (o : Offsets) : Prop :=
  3 ≤ o.typeLo ∧ 3 ≤ o.typeHi ∧ 3 ≤ o.status ∧ 3 ≤ o.buttons ∧ 3 ≤ o.pakData ∧ 3 ≤ o.rtcBlock ∧
    3 ≤ o.rtcData ∧ 3 ≤ o.rtcStatus

/-- The parameters a session may have. -/
abbrev Config.WellFormed (c : Config) : Prop := c.opcodes.Distinct ∧ c.offsets.InPayload

/-- A command the decoder could have read: an unknown opcode is none of the eight (R61), a phase 2 no-operation has
another opcode than controller-read (R85), an invalid block index is 3 to 255 (R39). -/
abbrev Instr.WellFormed (c : Config) : Instr → Prop
  | .unknown _ op => op ∉ c.opcodes.all
  | .nop2 _ op => op ≠ c.opcodes.controllerRead
  | .rtcReadBinv _ blk => 3 ≤ blk.toNat
  | .rtcWriteBinv _ blk => 3 ≤ blk.toNat
  | .status _ | .reset _ | .controllerRead _ | .pakRead _ | .pakWrite _ | .rtcStatus _
  | .rtcReadB0 _ | .rtcReadB1 _ | .rtcReadB2 _ | .rtcWriteB0 _ | .rtcWriteB1 _ | .rtcWriteB2 _
  | .controllerReadExec _ | .crc8 => True

end Sys2Proof
end

