-- ==== Sys2Proof/Decode.lean ====
section
/-! DEFINITION. Decoding a command buffer at an entry point (spec 30_encoding.md R52, R53, R65; 41_controller_commands.md
R80, R84), the opcode table as data, and the encoder. -/

namespace Sys2Proof

/-- Why the decoder refuses an invocation; both are edges of the model's domain (60_exceptions.md R137). -/
inductive DecodeError where
  /-- the port index is not 0 to 3 (R65, I10) -/
  | portOutOfRange
  /-- the buffer ends before a byte the decoder reads (20_memory.md R32, I11) -/
  | bufferTooShort
deriving DecidableEq, Repr

/-! ### How much of the buffer a command needs (20_memory.md R47, third column, plus one) -/

/-- Header only: the opcode is the highest index. -/
def Offsets.headerSpan : Nat := offOpcode + 1

/-- F-STATUS and F-RTCSTATUS. -/
def Offsets.statusSpan (o : Offsets) : Nat :=
  max offOpcode (max o.typeLo (max o.typeHi o.status)) + 1

/-- F-CREAD at phase 2. -/
def Offsets.buttonsSpan (o : Offsets) : Nat := max offOpcode (o.buttons + 3) + 1

/-- F-PAK. -/
def Offsets.pakSpan (o : Offsets) : Nat := max offAddrLo o.pakCrc + 1

/-- F-RTCBLOCK. -/
def Offsets.rtcSpan (o : Offsets) : Nat :=
  max offOpcode (max o.rtcBlock (max (o.rtcData + 7) o.rtcStatus)) + 1

/-- The number of buffer bytes a command needs (R32, R47). CRC8 works on the data region of F-PAK and the byte after. -/
def Instr.span (o : Offsets) : Instr → Nat
  | .status _ => o.statusSpan
  | .reset _ => o.statusSpan
  | .controllerRead _ => Offsets.headerSpan
  | .pakRead _ => o.pakSpan
  | .pakWrite _ => o.pakSpan
  | .rtcStatus _ => o.statusSpan
  | .rtcReadB0 _ => o.rtcSpan
  | .rtcReadB1 _ => o.rtcSpan
  | .rtcReadB2 _ => o.rtcSpan
  | .rtcReadBinv _ _ => o.rtcSpan
  | .rtcWriteB0 _ => o.rtcSpan
  | .rtcWriteB1 _ => o.rtcSpan
  | .rtcWriteB2 _ => o.rtcSpan
  | .rtcWriteBinv _ _ => o.rtcSpan
  | .unknown _ _ => Offsets.headerSpan
  | .controllerReadExec _ => o.buttonsSpan
  | .nop2 _ _ => Offsets.headerSpan
  | .crc8 => o.pakSpan

/-! ### The decoder -/

/-- The variant of RTC_READ a block index selects (42_rtc_commands.md R102). -/
def rtcReadVariant (p : Port) (blk : Byte) : Instr :=
  if blk = 0 then .rtcReadB0 p
  else if blk = 1 then .rtcReadB1 p
  else if blk = 2 then .rtcReadB2 p
  else .rtcReadBinv p blk

/-- The variant of RTC_WRITE a block index selects (R111). -/
def rtcWriteVariant (p : Port) (blk : Byte) : Instr :=
  if blk = 0 then .rtcWriteB0 p
  else if blk = 1 then .rtcWriteB1 p
  else if blk = 2 then .rtcWriteB2 p
  else .rtcWriteBinv p blk

/-- The dispatch of `Phase1` on the opcode byte (R80); `blk` is the block index byte, if the buffer reaches to it. -/
def selectPhase1 (o : Opcodes) (p : Port) (op : Byte) (blk : Option Byte) : Except DecodeError Instr :=
  if op = o.status then .ok (.status p)
  else if op = o.reset then .ok (.reset p)
  else if op = o.controllerRead then .ok (.controllerRead p)
  else if op = o.pakRead then .ok (.pakRead p)
  else if op = o.pakWrite then .ok (.pakWrite p)
  else if op = o.rtcStatus then .ok (.rtcStatus p)
  else if op = o.rtcRead then
    match blk with
    | some b => .ok (rtcReadVariant p b)
    | none => .error .bufferTooShort
  else if op = o.rtcWrite then
    match blk with
    | some b => .ok (rtcWriteVariant p b)
    | none => .error .bufferTooShort
  else .ok (.unknown p op)

/-- The dispatch of `Phase2` (R84, R85). -/
def selectPhase2 (o : Opcodes) (p : Port) (op : Byte) : Instr :=
  if op = o.controllerRead then .controllerReadExec p else .nop2 p op

/-- The command an invocation of `entry` with port index `port` and buffer `bytes` names (R52, R65, R66). Total on any
bytes; it refuses by name and never answers `crc8`, which neither entry point selects (R53). -/
def decode (c : Config) (entry : EntryPoint) (port : Nat) (bytes : List Byte) : Except DecodeError Instr :=
  if h : port < nPorts then
    match bytes[offOpcode]? with
    | none => .error .bufferTooShort
    | some op =>
      match entry with
      | .phase1 => selectPhase1 c.opcodes ⟨port, h⟩ op bytes[c.offsets.rtcBlock]?
      | .phase2 => .ok (selectPhase2 c.opcodes ⟨port, h⟩ op)
  else .error .portOutOfRange

/-! ### The opcode table as data (R52, spec/opcode_table.json) -/

/-- One row of the table: a key matches when `key &&& mask = pattern`. `build` makes the command from the port, the
opcode byte and the block byte. -/
structure Row where
  mask    : BitVec 16
  pattern : BitVec 16
  build   : Port → Byte → Byte → Instr

/-- The decode key `KEY = buf[2] || buf[3]`, that is `(buf[2] << 8) | buf[3]` (R52). -/
def decodeKey (op blk : Byte) : BitVec 16 := (op.setWidth 16 <<< 8) ||| blk.setWidth 16

/-- The rows of one entry point, in the table's order. -/
def tableRows (o : Opcodes) : EntryPoint → List Row
  | .phase1 =>
    [ ⟨0xFF00#16, decodeKey o.status 0, fun p _ _ => .status p⟩,
      ⟨0xFF00#16, decodeKey o.reset 0, fun p _ _ => .reset p⟩,
      ⟨0xFF00#16, decodeKey o.controllerRead 0, fun p _ _ => .controllerRead p⟩,
      ⟨0xFF00#16, decodeKey o.pakRead 0, fun p _ _ => .pakRead p⟩,
      ⟨0xFF00#16, decodeKey o.pakWrite 0, fun p _ _ => .pakWrite p⟩,
      ⟨0xFF00#16, decodeKey o.rtcStatus 0, fun p _ _ => .rtcStatus p⟩,
      ⟨0xFFFF#16, decodeKey o.rtcRead 0, fun p _ _ => .rtcReadB0 p⟩,
      ⟨0xFFFF#16, decodeKey o.rtcRead 1, fun p _ _ => .rtcReadB1 p⟩,
      ⟨0xFFFF#16, decodeKey o.rtcRead 2, fun p _ _ => .rtcReadB2 p⟩,
      ⟨0xFF00#16, decodeKey o.rtcRead 0, fun p _ blk => .rtcReadBinv p blk⟩,
      ⟨0xFFFF#16, decodeKey o.rtcWrite 0, fun p _ _ => .rtcWriteB0 p⟩,
      ⟨0xFFFF#16, decodeKey o.rtcWrite 1, fun p _ _ => .rtcWriteB1 p⟩,
      ⟨0xFFFF#16, decodeKey o.rtcWrite 2, fun p _ _ => .rtcWriteB2 p⟩,
      ⟨0xFF00#16, decodeKey o.rtcWrite 0, fun p _ blk => .rtcWriteBinv p blk⟩,
      ⟨0x0000#16, 0x0000#16, fun p op _ => .unknown p op⟩ ]
  | .phase2 =>
    [ ⟨0xFF00#16, decodeKey o.controllerRead 0, fun p _ _ => .controllerReadExec p⟩,
      ⟨0x0000#16, 0x0000#16, fun p op _ => .nop2 p op⟩ ]

/-- "rows are tried in file order and the first match wins" (R52). -/
def firstMatch (p : Port) (op blk : Byte) : List Row → Option Instr
  | [] => none
  | r :: rs =>
    if decodeKey op blk &&& r.mask = r.pattern then some (r.build p op blk) else firstMatch p op blk rs

/-! ### The encoder -/

/-- An invocation as the host presents it: entry point, port index, buffer (R65, R66). -/
structure Encoded where
  entry : EntryPoint
  port  : Nat
  bytes : List Byte
deriving DecidableEq, Repr

/-- A buffer of `n` bytes that holds an opcode and otherwise zeros. -/
def opcodeBuffer (n : Nat) (op : Byte) : List Byte := (List.replicate n 0#8).set offOpcode op

/-- The same with a block index. -/
def blockBuffer (o : Offsets) (n : Nat) (op blk : Byte) : List Byte := (opcodeBuffer n op).set o.rtcBlock blk

/-- The shortest buffer of zero operands that carries a command (R53 to R58). CRC8 has no opcode, so no encoding. -/
def encode (c : Config) (i : Instr) : Option Encoded :=
  let n := i.span c.offsets
  match i with
  | .status p => some ⟨.phase1, p, opcodeBuffer n c.opcodes.status⟩
  | .reset p => some ⟨.phase1, p, opcodeBuffer n c.opcodes.reset⟩
  | .controllerRead p => some ⟨.phase1, p, opcodeBuffer n c.opcodes.controllerRead⟩
  | .pakRead p => some ⟨.phase1, p, opcodeBuffer n c.opcodes.pakRead⟩
  | .pakWrite p => some ⟨.phase1, p, opcodeBuffer n c.opcodes.pakWrite⟩
  | .rtcStatus p => some ⟨.phase1, p, opcodeBuffer n c.opcodes.rtcStatus⟩
  | .rtcReadB0 p => some ⟨.phase1, p, blockBuffer c.offsets n c.opcodes.rtcRead 0⟩
  | .rtcReadB1 p => some ⟨.phase1, p, blockBuffer c.offsets n c.opcodes.rtcRead 1⟩
  | .rtcReadB2 p => some ⟨.phase1, p, blockBuffer c.offsets n c.opcodes.rtcRead 2⟩
  | .rtcReadBinv p blk => some ⟨.phase1, p, blockBuffer c.offsets n c.opcodes.rtcRead blk⟩
  | .rtcWriteB0 p => some ⟨.phase1, p, blockBuffer c.offsets n c.opcodes.rtcWrite 0⟩
  | .rtcWriteB1 p => some ⟨.phase1, p, blockBuffer c.offsets n c.opcodes.rtcWrite 1⟩
  | .rtcWriteB2 p => some ⟨.phase1, p, blockBuffer c.offsets n c.opcodes.rtcWrite 2⟩
  | .rtcWriteBinv p blk => some ⟨.phase1, p, blockBuffer c.offsets n c.opcodes.rtcWrite blk⟩
  | .unknown p op => some ⟨.phase1, p, opcodeBuffer n op⟩
  | .controllerReadExec p => some ⟨.phase2, p, opcodeBuffer n c.opcodes.controllerRead⟩
  | .nop2 p op => some ⟨.phase2, p, opcodeBuffer n op⟩
  | .crc8 => none

/-! ### The table's words (L3) -/

/-- The longest buffer any command needs under the parameters. -/
def Offsets.longestSpan (o : Offsets) : Nat :=
  max o.statusSpan (max o.buttonsSpan (max o.pakSpan o.rtcSpan))

/-- The invocation a table word stands for: bits 15:8 are the opcode byte, bits 7:0 the block byte (`KEY`, R52), every
other buffer byte is zero. The table gives the entry point and the port no bits of the key; beyond the key, bit 16 set
names phase 2 and bits 31:24 are the port index (L3). -/
def tableInvocation (o : Offsets) (nbits w : Nat) : Encoded :=
  let v := w % 2 ^ nbits
  { entry := if (v / 2 ^ 16) % 2 = 1 then .phase2 else .phase1
    port := (v / 2 ^ 24) % 256
    bytes := blockBuffer o o.longestSpan (BitVec.ofNat 8 (v / 2 ^ 8)) (BitVec.ofNat 8 v) }

/-- The instruction the decoder reads from a table word, under the default parameters. -/
def decodeTableWord (nbits w : Nat) : Option Instr :=
  let e := tableInvocation Config.default.offsets nbits w
  (decode Config.default e.entry e.port e.bytes).toOption

end Sys2Proof
end

