-- ==== Sys2Proof/Machine/State.lean ====
section
/-! DEFINITION. The state of PIFBLK as plain data, the reasons a step stops, and the machine after reset
(spec 10_state.md). -/

namespace Sys2Proof.Machine

open Sys2Proof

/-- One entry of the port table (R15). -/
structure PortEntry where
  /-- a controller is present on the port -/
  connected : Bool
  /-- the accessory in the controller's pak slot (R16) -/
  pak : Pak
  /-- the port owns an RTC device -/
  hasRtc : Bool
deriving DecidableEq, Repr

/-- The three fields of one RTC (R18, R19, R20). -/
structure Rtc where
  /-- the 16-bit control register; bit 0 locks block 1, bit 1 locks block 2 (R18) -/
  control : BitVec 16
  /-- the internal clock, whole seconds (R19) -/
  clock : Int
  /-- the last-sampled wall time (R20) -/
  last : Int
deriving DecidableEq, Repr

/-- What power-on makes of an RTC (R21). `last` is PRESUMED (L10). -/
def Rtc.powerOn : Rtc := { control := 0x0200, clock := 0, last := 0 }

/-- A feature the RTC lacks (60_exceptions.md R134). -/
inductive Feature where
  | rtcReadBlock1
  | rtcWriteBlock1
  | rtcWriteBlock2
deriving DecidableEq, Repr

/-- The error kinds PIFBLK raises, each with what it records (R130). NetworkFailure is out of scope (R136). -/
inductive ErrorKind where
  | deviceAbsent
  | protocolError (op : Byte)
  | unsupportedAccessory (pak : Pak)
  | unimplementedFeature (what : Feature)
  | rtcInvalidBlock (blk : Byte)
deriving DecidableEq, Repr

/-- The severity of a log event (R143). That of UnimplementedFeature is PRESUMED (L22). -/
inductive Severity where
  | warning
  | error
deriving DecidableEq, Repr

/-- One event of the log channel (R143). -/
structure LogEvent where
  severity : Severity
  kind : ErrorKind
deriving DecidableEq, Repr

/-- Bytes by address: the memory of the host, in which command buffers lie (20_memory.md R31). Canonical form:
addresses strictly rising. An unlisted address has no value; see `State.readByte` (L5). -/
abbrev Memory := List Host.Cell

/-- The canonical form of a memory. No entry can equal what an unlisted address reads as, which is no value. -/
abbrev Memory.wf (m : Memory) : Prop := m.Pairwise (fun c d => c.1 < d.1)

/-- A command buffer lent by reference: where it begins and `BUF_LEN` (R31). -/
structure BufferRef where
  base : Nat
  len : Nat
deriving DecidableEq, Repr

/-- An invocation as the host makes it (30_encoding.md R65, R66). -/
structure Invocation where
  entry : EntryPoint
  port : Nat
  buf : BufferRef
deriving DecidableEq, Repr

/-- What the host and the environment can do next (70_reset_and_hazards.md R163). -/
inductive HostEvent where
  /-- the environment delivers power-on (R150) -/
  | powerOn
  /-- the host invokes an entry point (R66) -/
  | invoke (inv : Invocation)
  /-- the host writes its own memory between invocations (10_state.md R24) -/
  | store (addr : Nat) (bytes : List Byte)
  /-- an attempt to change a binding inside the session (R17) -/
  | rebind (p : Port) (entry : PortEntry)
deriving DecidableEq, Repr

/-- Answers of the collaborators that are already fixed, first answer first (L20). Where a list is empty the answer is
a free value. -/
structure Script where
  words : List (BitVec 32)
  times : List Int
  blocks : List Block
deriving DecidableEq, Repr

/-- The machine. `ports` and `rtc` are the spec's state (R10); `cfg` the session's parameters (R5); `mem`, `lent`,
`log` what the rules read or change and others own (R22, R24); `pending`, `script`, `calls` the model's own. -/
structure State where
  /-- the parameters of the session, constant (R5) -/
  cfg : Config
  /-- the port table, constant over a session (R15, R17) -/
  ports : Vector PortEntry nPorts
  /-- the RTC registers of each port (R18 to R20) -/
  rtc : Vector Rtc nPorts
  /-- the host's memory (R24, R31) -/
  mem : Memory
  /-- the buffer lent to the current invocation, or last lent (R24, R31) -/
  lent : BufferRef
  /-- what the host and the environment do next, oldest first (L2) -/
  pending : List HostEvent
  /-- answers already fixed (L20) -/
  script : Script
  /-- the collaborator calls made so far, oldest first (L21) -/
  calls : List Call
  /-- the log, oldest event first (R143) -/
  log : List LogEvent
deriving DecidableEq, Repr

/-- Reasons a step stops with a fault: none. "No PIFBLK rule has a fault outcome, a stuck outcome or a hang" (R137;
L35). -/
inductive Fault where
deriving DecidableEq, Repr

/-- Reasons a step is refused. All but the first are edges of the model's domain, those of 93_implementation_defined.md
that R137 allows a model, and safe: the model stops where the spec gives no step. -/
inductive Refusal where
  /-- raised by `exec` for an instruction that has no meaning yet; safe -/
  | notModelled (mnemonic : String)
  /-- raised by the decoder: the port index of an invocation is not 0 to 3 (R65, I10); safe -/
  | portOutOfRange
  /-- raised by the decoder and by every meaning: the lent buffer is shorter than the command needs (R32, I11); safe -/
  | shortBuffer
  /-- raised by RTC_READ.B2: the calendar answers a negative field, on which BCD is not defined (R108, I20); safe -/
  | negativeCalendarField
  /-- raised by `step`: a port's binding would change inside the session (R17, I13); safe -/
  | rebindInSession
deriving DecidableEq, Repr

/-- The state a session starts in: the environment has bound the ports and fixed the parameters, and power-on has
occurred (R17, R153; L8). Memory, log and call history are empty and nothing is pending. -/
def State.launch (cfg : Config) (ports : Vector PortEntry nPorts) : State where
  cfg := cfg
  ports := ports
  rtc := Vector.replicate nPorts Rtc.powerOn
  mem := []
  lent := { base := 0, len := 0 }
  pending := []
  script := { words := [], times := [], blocks := [] }
  calls := []
  log := []

/-- A port with nothing on it. -/
def PortEntry.empty : PortEntry := { connected := false, pak := .noPak, hasRtc := false }

/-- The machine right after reset (R21). The spec leaves the port table to the session's configuration; reset takes
four empty ports (DESIGN CHOICE, L9) and the default parameters (L11 to L15). -/
def State.reset : State := State.launch Config.default (Vector.replicate nPorts PortEntry.empty)

end Sys2Proof.Machine
end

