-- ==== Sys2Proof/Machine/Flags.lean ====
section
/-! DEFINITION. The one flag-like bit, the error flag: bit 7 of `buf[1]` (spec 10_state.md R14, 60_exceptions.md R131). -/

namespace Sys2Proof.Machine

open Sys2Proof

/-- The mask of the error flag in the byte at index 1 (R50). -/
def errMask : Byte := 0x80

/-- Whether a byte 1 carries the error flag (R81: `(buf[1] & 0x80) != 0`). -/
def errorFlagOf (b : Byte) : Bool := b &&& errMask != 0

/-- A byte 1 with the error flag set and bits 6:0 as they were (R131: `buf[1] | 0x80`). -/
def withErrorFlag (b : Byte) : Byte := b ||| errMask

/-- `LOCK1`, control bit 0: block 1 is read-only (R18). -/
def Rtc.lock1 (r : Rtc) : Bool := r.control.getLsbD 0

/-- `LOCK2`, control bit 1: block 2 is read-only (R18). -/
def Rtc.lock2 (r : Rtc) : Bool := r.control.getLsbD 1

end Sys2Proof.Machine
end

