-- ==== Sys2Proof/Machine/Ops.lean ====
section
/-! DEFINITION. The named operations over memory, the lent buffer, the RTC registers, the log and the collaborators, and
the one operation that delivers an error (spec 20_memory.md, 60_exceptions.md R138). -/

namespace Sys2Proof.Machine

open Sys2Proof

/-- What one step answers. -/
abbrev Result := Host.Outcome State Fault Refusal

/-! ### Memory -/

/-- The byte listed at an address, if any. -/
def Memory.read : Memory → Nat → Option Byte
  | [], _ => none
  | (b, w) :: m, a => if a = b then some w else Memory.read m a

/-- Write one byte, keeping the addresses rising. -/
def Memory.write : Memory → Nat → Byte → Memory
  | [], a, v => [(a, v)]
  | (b, w) :: m, a, v =>
    if a < b then (a, v) :: (b, w) :: m
    else if a = b then (a, v) :: m
    else (b, w) :: Memory.write m a v

/-- Write bytes at rising addresses, in ascending order (20_memory.md R43). -/
def Memory.writeList : Memory → Nat → List Byte → Memory
  | m, _, [] => m
  | m, a, v :: vs => Memory.writeList (Memory.write m a v) (a + 1) vs

/-- The byte at an address of the host's memory. A byte nobody has written is a free value (L5). -/
def State.readByte (s : State) (a : Nat) : Byte := (s.mem.read a).getD (Config.unwrittenByte a)

/-! ### The lent command buffer (R31) -/

/-- The address of `buf[i]`. -/
def State.bufAddr (s : State) (i : Nat) : Nat := s.lent.base + i

/-- `buf[i]`. -/
def State.bufRead (s : State) (i : Nat) : Byte := s.readByte (s.bufAddr i)

/-- `buf[i] <- v`. -/
def State.bufWrite (s : State) (i : Nat) (v : Byte) : State :=
  { s with mem := s.mem.write (s.bufAddr i) v }

/-- `buf[i ..] <- vs`, one byte write after another in ascending index order (R43). -/
def State.bufWriteList (s : State) (i : Nat) (vs : List Byte) : State :=
  { s with mem := s.mem.writeList (s.bufAddr i) vs }

/-- The accessory block standing at `buf[i .. i+31]`. -/
def State.bufBlock (s : State) (i : Nat) : Block := Vector.ofFn fun k : Fin blockLen => s.bufRead (i + k.val)

/-- All bytes of a buffer, lowest index first: what the decoder is given. -/
def State.bufferBytes (s : State) (r : BufferRef) : List Byte :=
  (List.range r.len).map fun i => s.readByte (r.base + i)

/-- The error flag of the lent buffer (R14). -/
def State.errorFlag (s : State) : Bool := errorFlagOf (s.bufRead offFlag)

/-- `buf[1] <- buf[1] | 0x80` (R131). -/
def State.setErrorFlag (s : State) : State := s.bufWrite offFlag (withErrorFlag (s.bufRead offFlag))

/-! ### Ports and RTC registers -/

/-- The entry of a port in the port table (R15). -/
def State.port (s : State) (p : Port) : PortEntry := s.ports[p]

/-- `Connected(p)` (41_controller_commands.md R89). -/
def State.connected (s : State) (p : Port) : Bool := (s.port p).connected

/-- The pak-present set: the accessories with a backend (R16). -/
def pakPresent : Pak → Bool
  | .mem | .rumble | .transfer => true
  | .noPak | .unknown => false

/-- The RTC registers of a port. -/
def State.rtcAt (s : State) (p : Port) : Rtc := s.rtc[p]

/-- Replace the RTC registers of a port. -/
def State.setRtc (s : State) (p : Port) (r : Rtc) : State := { s with rtc := s.rtc.set p r }

/-! ### The log and the errors -/

/-- `Log(severity, kind, info)`: append one event (R143). -/
def State.logEvent (s : State) (sev : Severity) (k : ErrorKind) : State :=
  { s with log := s.log ++ [{ severity := sev, kind := k }] }

/-- `raise K(info)`: how each error kind is delivered (R138). It transfers no control; this is all PIFBLK has in place
of taking an exception, and there is no return from one (R141). -/
def State.raise (s : State) : ErrorKind → State
  | .deviceAbsent => s.setErrorFlag
  | .protocolError _ => s
  | .unsupportedAccessory pak => s.logEvent .warning (.unsupportedAccessory pak)
  | .unimplementedFeature what => s.logEvent .error (.unimplementedFeature what)
  | .rtcInvalidBlock blk => s.logEvent .error (.rtcInvalidBlock blk)

/-! ### The collaborators: what one call answers, and the state after it (R36, R40, R41) -/

/-- Record a call. -/
def State.recordCall (s : State) (c : Call) : State := { s with calls := s.calls ++ [c] }

/-- The word the next `InputSource(p)` answers (R41; L17, L20). -/
def State.nextWord (s : State) (p : Port) : BitVec 32 :=
  match s.script.words with
  | w :: _ => w
  | [] => Config.inputWord s.calls p

/-- The state after one `InputSource(p)`. -/
def State.tookWord (s : State) (p : Port) : State :=
  { s with script := { s.script with words := s.script.words.tail }, calls := s.calls ++ [.inputSource p] }

/-- The time the next `WallClock()` answers (R40; L18, L20). -/
def State.nextTime (s : State) : Int :=
  match s.script.times with
  | t :: _ => t
  | [] => Config.wallTime s.calls

/-- The state after one `WallClock()`. -/
def State.tookTime (s : State) : State :=
  { s with script := { s.script with times := s.script.times.tail }, calls := s.calls ++ [.wallClock] }

/-- The block the next `Backend[p].read_block(addr)` answers (R36; L19, L20). -/
def State.nextBlock (s : State) (p : Port) (addr : BitVec 16) : Block :=
  match s.script.blocks with
  | b :: _ => b
  | [] => Config.backendBlock s.calls p (s.port p).pak addr

/-- The state after one `Backend[p].read_block(addr)`. -/
def State.tookBlock (s : State) (p : Port) (addr : BitVec 16) : State :=
  { s with script := { s.script with blocks := s.script.blocks.tail }, calls := s.calls ++ [.readBlock p addr] }

/-! ### Completing a command -/

/-- A command needs `need` bytes of buffer: with them it ends in `t`, without them the invocation is refused (R32, L6). -/
def State.within (s : State) (need : Nat) (t : State) : Result :=
  if need ≤ s.lent.len then .next t else .refused .shortBuffer

/-- The same for a command with a further edge: in a long enough buffer it is refused as `r` where `edge` holds (L16). -/
def State.withinUnless (s : State) (need : Nat) (edge : Bool) (r : Refusal) (t : State) : Result :=
  if need ≤ s.lent.len ∧ edge = true then .refused r else s.within need t

end Sys2Proof.Machine
end

