-- ==== Sys2Proof/Machine/Operands.lean ====
section
/-! DEFINITION. Operand assembly and field splitting (spec 30_encoding.md R54 to R60, 20_memory.md R33). -/

namespace Sys2Proof.Machine

open Sys2Proof

/-- `v[7:0]` of a 16-bit value. -/
def loByte (v : BitVec 16) : Byte := v.extractLsb' 0 8

/-- `v[15:8]` of a 16-bit value. -/
def hiByte (v : BitVec 16) : Byte := v.extractLsb' 8 8

/-- A 16-bit value from its high and low bytes, `(hi << 8) | lo`. -/
def ofBytes (hi lo : Byte) : BitVec 16 := (hi.setWidth 16 <<< 8) ||| lo.setWidth 16

/-- The four bytes of a 32-bit word, `w[7:0]` first (R55). -/
def wordBytes (w : BitVec 32) : List Byte :=
  [w.extractLsb' 0 8, w.extractLsb' 8 8, w.extractLsb' 16 8, w.extractLsb' 24 8]

/-- The mask that clears the low five bits of the low address byte (R59). -/
def addrLoMask : Byte := 0xE0

/-- The chunk-aligned address `(hi << 8) | (lo & 0xE0)` (R59). -/
def chunkAddress (hi lo : Byte) : BitVec 16 := ofBytes hi (lo &&& addrLoMask)

/-- The pak address of the lent buffer (R56, R59). -/
def State.pakAddress (s : State) : BitVec 16 := chunkAddress (s.bufRead offAddrHi) (s.bufRead offAddrLo)

/-- The data region of F-PAK (R56). -/
def State.pakData (s : State) : Block := s.bufBlock s.cfg.offsets.pakData

/-- The control value of a block 0 write, `(buf[5] << 8) | buf[4]` under the default offsets (R60). -/
def State.controlOperand (s : State) : BitVec 16 :=
  ofBytes (s.bufRead (s.cfg.offsets.rtcData + 1)) (s.bufRead s.cfg.offsets.rtcData)

/-- Write a device-type code, low byte first (R54, R57). -/
def State.writeTypeCode (s : State) (code : BitVec 16) : State :=
  (s.bufWrite s.cfg.offsets.typeLo (loByte code)).bufWrite s.cfg.offsets.typeHi (hiByte code)

/-- Write `RTC_STATUS_OK` where RTC_READ and RTC_WRITE answer their status (R58). -/
def State.writeRtcOk (s : State) : State := s.bufWrite s.cfg.offsets.rtcStatus s.cfg.rtcStatusOk

end Sys2Proof.Machine
end

