-- ==== Sys2Proof/Machine/Controller.lean ====
section
/-! DEFINITION. The controller-path commands without a pak transfer, the unknown opcodes and the second phase
(spec 41_controller_commands.md R81 to R85, R88). -/

namespace Sys2Proof.Machine

open Sys2Proof

/-- The pak status byte: 1 "pak present", 0 "no pak" (R81). -/
def pakStatusByte (pak : Pak) : Byte := if pakPresent pak then 1 else 0

/-- The status response on a connected port (R81). -/
def State.writeStatus (s : State) (p : Port) : State :=
  (s.writeTypeCode s.cfg.controllerTypeCode).bufWrite s.cfg.offsets.status (pakStatusByte (s.port p).pak)

/-- What STATUS and RESET do: nothing if the flag is already set, else DeviceAbsent if the port is disconnected, else
the response (R81, R82, R140). -/
def State.answerStatus (s : State) (p : Port) : State :=
  if s.errorFlag then s
  else if s.connected p then s.writeStatus p
  else s.raise .deviceAbsent

/-- STATUS (R81). -/
def execStatus (p : Port) (s : State) : Result :=
  s.within ((Instr.status p).span s.cfg.offsets) (s.answerStatus p)

/-- RESET: the status command under a second opcode; it resets nothing (R82, R152). -/
def execReset (p : Port) (s : State) : Result :=
  s.within ((Instr.reset p).span s.cfg.offsets) (s.answerStatus p)

/-- CONTROLLER_READ at phase 1: only the error flag, and only on a disconnected port (R83). -/
def execControllerRead (p : Port) (s : State) : Result :=
  s.within ((Instr.controllerRead p).span s.cfg.offsets)
    (if s.connected p then s else s.raise .deviceAbsent)

/-- Call the input source once and write its word, low byte first (R84). -/
def State.latchButtons (s : State) (p : Port) : State :=
  (s.tookWord p).bufWriteList s.cfg.offsets.buttons (wordBytes (s.nextWord p))

/-- CONTROLLER_READ.EXEC: phase 2 asks `Connected(p)` afresh and reads no flag (R84). -/
def execControllerReadExec (p : Port) (s : State) : Result :=
  s.within ((Instr.controllerReadExec p).span s.cfg.offsets)
    (if s.connected p then s.latchButtons p else s)

/-- NOP2: phase 2 of any other opcode changes nothing (R85). -/
def execNop2 (p : Port) (op : Byte) (s : State) : Result :=
  s.within ((Instr.nop2 p op).span s.cfg.offsets) s

/-- UNKNOWN: ProtocolError, whose delivery is empty (R88, R132). -/
def execUnknown (p : Port) (op : Byte) (s : State) : Result :=
  s.within ((Instr.unknown p op).span s.cfg.offsets) (s.raise (.protocolError op))

end Sys2Proof.Machine
end

