-- ==== Sys2Proof/Machine/Crc8.lean ====
section
/-! DEFINITION. The CRC8 checksum engine (spec 40_crc8.md). -/

namespace Sys2Proof.Machine

open Sys2Proof

/-- `CRC_TAP` (R71). -/
def crcTap : Byte := 0x85

/-- `CRC_ROUNDS`: one more than the bytes of a block (R71, R72). -/
def crcRounds : Nat := 33

/-- One bit step: the tap is decided by bit 7 before the shift; shift, OR, XOR in this order (R71). -/
def crcBit (crc : Byte) (bit : Bool) : Byte :=
  let tap := if crc &&& 0x80 != 0 then crcTap else 0
  let shifted := crc <<< 1
  let joined := if bit then shifted ||| 1 else shifted
  joined ^^^ tap

/-- Bit positions from most to least significant (R71). -/
def bitPositions : List Nat := [7, 6, 5, 4, 3, 2, 1, 0]

/-- The input bit of round `i` at position `k`; the round after the last byte reads none (R71, R72). -/
def crcInput (block : Block) (i k : Nat) : Bool :=
  if h : i < blockLen then block[i].getLsbD k else false

/-- One of the 33 rounds: eight bit steps (R71). -/
def crcRound (block : Block) (crc : Byte) (i : Nat) : Byte :=
  bitPositions.foldl (fun c k => crcBit c (crcInput block i k)) crc

/-- `CRC8(block)` from the start value `init` (R71). -/
def crc8 (init : Byte) (block : Block) : Byte := (List.range crcRounds).foldl (crcRound block) init

/-- Store the checksum of the data region of the lent buffer right after it (R70, R76). -/
def State.appendCrc (s : State) : State :=
  s.bufWrite s.cfg.offsets.pakCrc (crc8 s.cfg.crcInit s.pakData)

/-- CRC8, the engine on its own: the checksum of the lent buffer's data region, stored after it, and nothing else (R70,
R71; L27). -/
def execCrc8 (s : State) : Result := s.within (Instr.crc8.span s.cfg.offsets) s.appendCrc

end Sys2Proof.Machine
end

