-- ==== Sys2Proof/Machine/Pak.lean ====
section
/-! DEFINITION. PAK_READ and PAK_WRITE (spec 41_controller_commands.md R86, R87). -/

namespace Sys2Proof.Machine

open Sys2Proof

/-- Store a block in the data region (R86). -/
def State.storePakData (s : State) (b : Block) : State := s.bufWriteList s.cfg.offsets.pakData b.toList

/-- The block of zeros that an absent or unknown accessory answers (R86). -/
def zeroBlock : Block := Vector.replicate blockLen 0

/-- Fill the data region as the accessory type says: one backend read, zeros, or a warning and zeros (R86). -/
def State.readAccessory (s : State) (p : Port) : State :=
  match (s.port p).pak with
  | .mem | .rumble | .transfer =>
    (s.tookBlock p s.pakAddress).storePakData (s.nextBlock p s.pakAddress)
  | .noPak => s.storePakData zeroBlock
  | .unknown => (s.raise (.unsupportedAccessory .unknown)).storePakData zeroBlock

/-- Hand the data region on as the accessory type says: one backend write, nothing, or a warning (R87). -/
def State.writeAccessory (s : State) (p : Port) : State :=
  match (s.port p).pak with
  | .mem | .rumble | .transfer => s.recordCall (.writeBlock p s.pakAddress s.pakData)
  | .noPak => s
  | .unknown => s.raise (.unsupportedAccessory .unknown)

/-- PAK_READ: DeviceAbsent alone on a disconnected port, else the data and the checksum of what then stands in the
buffer (R86, R140). -/
def execPakRead (p : Port) (s : State) : Result :=
  s.within ((Instr.pakRead p).span s.cfg.offsets)
    (if s.connected p then (s.readAccessory p).appendCrc else s.raise .deviceAbsent)

/-- PAK_WRITE: DeviceAbsent alone on a disconnected port, else the write and the checksum of the host's bytes (R87). -/
def execPakWrite (p : Port) (s : State) : Result :=
  s.within ((Instr.pakWrite p).span s.cfg.offsets)
    (if s.connected p then (s.writeAccessory p).appendCrc else s.raise .deviceAbsent)

end Sys2Proof.Machine
end

