-- ==== Sys2Proof/Machine/Calendar.lean ====
section
/-! DEFINITION. The calendar and the BCD time bytes of the RTC (spec 42_rtc_commands.md R105, R107, R108, R109). -/

namespace Sys2Proof.Machine

open Sys2Proof

/-- `BCD(n)`: the tens digit in bits 7:4 and the units digit in bits 3:0; hundreds are dropped (R108). -/
def bcd (n : Nat) : Byte := BitVec.ofNat 8 ((((n % 100) / 10) <<< 4) ||| ((n % 100) % 10))

/-- Year, month and day of a day number counted from 1970-01-01, in the proleptic Gregorian calendar (R109; PRESUMED,
L15). Years are counted from 1 March, in eras of 400 years (146097 days) that begin on 0000-03-01. Month 1 is January. -/
def civilOfDays (days : Int) : Int × Nat × Nat :=
  let z := days + 719468
  let era := z / 146097
  let doe := (z % 146097).toNat
  let yoe := (doe - doe / 1460 + doe / 36524 - doe / 146096) / 365
  let doy := doe - (365 * yoe + yoe / 4 - yoe / 100)
  let mp := (5 * doy + 2) / 153
  let day := doy - (153 * mp + 2) / 5 + 1
  let month := if mp < 10 then mp + 3 else mp - 9
  let year := era * 400 + yoe + (if month ≤ 2 then 1 else 0)
  (year, month, day)

/-- The default `Calendar`: UTC, the C library's fields (R109; PRESUMED, L15). -/
def utcCalendar (t : Int) : CalendarFields :=
  let days := t / 86400
  let secs := (t % 86400).toNat
  let ymd := civilOfDays days
  { sec := secs % 60
    min := secs / 60 % 60
    hour := secs / 3600
    mday := ymd.2.2
    wday := ((days + 4) % 7).toNat
    mon := ymd.2.1 - 1
    year := ymd.1 - 1900 }

/-- `Calendar(t)` as the session's parameter has it (R109). -/
def calendar : CalendarChoice → Int → CalendarFields
  | .utc, t => utcCalendar t
  | .other, t => Config.otherCalendar t

/-- Whether a calendar answered a field that is not a natural, on which BCD is not defined (R108; I20). Only the year can
be one. -/
def negativeField (f : CalendarFields) : Bool := decide (f.year < 0)

/-- The eight time bytes of calendar fields without a negative one, in the order of R107. -/
def timeBytes (f : CalendarFields) : List Byte :=
  [ bcd f.sec, bcd f.min, 0x80 ||| bcd f.hour, bcd f.mday, bcd f.wday, bcd (f.mon + 1),
    bcd (f.year.toNat % 100), bcd (f.year.toNat / 100) ]

end Sys2Proof.Machine
end

