-- ==== Sys2Proof/Machine/RtcDevice.lean ====
section
/-! DEFINITION. The real-time-clock commands and power-on (spec 42_rtc_commands.md, 10_state.md R21). -/

namespace Sys2Proof.Machine

open Sys2Proof

/-- What an RTC opcode does on a port that owns no RTC (R100; L14). -/
def State.rtcAbsent (s : State) : State :=
  match s.cfg.rtcAbsentPolicy with
  | .setErrorBit => s.raise .deviceAbsent
  | .ignore => s

/-- Every RTC command begins so: without an RTC the absent case, with one its own effect `t` (R100, R140). -/
def State.onRtc (s : State) (p : Port) (t : State) : State :=
  if (s.port p).hasRtc then t else s.rtcAbsent

/-- The response of RTC_STATUS (R101). -/
def State.answerRtcStatus (s : State) : State :=
  (s.writeTypeCode s.cfg.rtcTypeCode).bufWrite s.cfg.offsets.status s.cfg.rtcStatusOk

/-- RTC_STATUS (R101). -/
def execRtcStatus (p : Port) (s : State) : Result :=
  s.within ((Instr.rtcStatus p).span s.cfg.offsets) (s.onRtc p s.answerRtcStatus)

/-- The control register, low byte first, and success (R103). -/
def State.answerControl (s : State) (p : Port) : State :=
  (s.bufWriteList s.cfg.offsets.rtcData [loByte (s.rtcAt p).control, hiByte (s.rtcAt p).control]).writeRtcOk

/-- RTC_READ.B0: the control register (R103). -/
def execRtcReadB0 (p : Port) (s : State) : Result :=
  s.within ((Instr.rtcReadB0 p).span s.cfg.offsets) (s.onRtc p (s.answerControl p))

/-- RTC_READ.B1: not implemented, one log event (R104). -/
def execRtcReadB1 (p : Port) (s : State) : Result :=
  s.within ((Instr.rtcReadB1 p).span s.cfg.offsets)
    (s.onRtc p (s.raise (.unimplementedFeature .rtcReadBlock1)))

/-- The clock advance by the signed delta of the wall time (R106). -/
def Rtc.advance (r : Rtc) (now : Int) : Rtc := { r with clock := r.clock + (now - r.last), last := now }

/-- The RTC registers of a port after one advance by what the wall clock answers next (R106). -/
def State.advancedRtc (s : State) (p : Port) : Rtc := (s.rtcAt p).advance s.nextTime

/-- The calendar fields a read of block 2 shows (R105, R109). -/
def State.timeFields (s : State) (p : Port) : CalendarFields := calendar s.cfg.calendar (s.advancedRtc p).clock

/-- A read of block 2 would pack a negative field: an edge of the model's domain (R108; I20; L16). -/
def State.negativeTime (s : State) (p : Port) : Bool := (s.port p).hasRtc && negativeField (s.timeFields p)

/-- Call the wall clock once, advance the clock and write the time bytes of the result (R105, R106). -/
def State.readTime (s : State) (p : Port) : State :=
  ((s.tookTime.setRtc p (s.advancedRtc p)).bufWriteList s.cfg.offsets.rtcData (timeBytes (s.timeFields p))).writeRtcOk

/-- RTC_READ.B2: the time (R105). The length of the buffer is checked first; a time with a negative field has no step
(I20; L16). -/
def execRtcReadB2 (p : Port) (s : State) : Result :=
  s.withinUnless ((Instr.rtcReadB2 p).span s.cfg.offsets) (s.negativeTime p) .negativeCalendarField
    (s.onRtc p (s.readTime p))

/-- RTC_READ.BINV: an invalid block index, one log event (R110). -/
def execRtcReadBinv (p : Port) (blk : Byte) (s : State) : Result :=
  s.within ((Instr.rtcReadBinv p blk).span s.cfg.offsets) (s.onRtc p (s.raise (.rtcInvalidBlock blk)))

/-- Load the control register of a port's RTC (R112). -/
def State.setControl (s : State) (p : Port) (v : BitVec 16) : State :=
  s.setRtc p { s.rtcAt p with control := v }

/-- The control register from the buffer, and success (R112). -/
def State.loadControl (s : State) (p : Port) : State := (s.setControl p s.controlOperand).writeRtcOk

/-- RTC_WRITE.B0: the control register, which no bit locks (R112). -/
def execRtcWriteB0 (p : Port) (s : State) : Result :=
  s.within ((Instr.rtcWriteB0 p).span s.cfg.offsets) (s.onRtc p (s.loadControl p))

/-- RTC_WRITE.B1: ignored when locked, else one log event (R113). -/
def execRtcWriteB1 (p : Port) (s : State) : Result :=
  s.within ((Instr.rtcWriteB1 p).span s.cfg.offsets)
    (s.onRtc p (if (s.rtcAt p).lock1 then s else s.raise (.unimplementedFeature .rtcWriteBlock1)))

/-- RTC_WRITE.B2: ignored when locked, else one log event; the time cannot be set (R114). -/
def execRtcWriteB2 (p : Port) (s : State) : Result :=
  s.within ((Instr.rtcWriteB2 p).span s.cfg.offsets)
    (s.onRtc p (if (s.rtcAt p).lock2 then s else s.raise (.unimplementedFeature .rtcWriteBlock2)))

/-- RTC_WRITE.BINV: an invalid block index, one log event (R115). -/
def execRtcWriteBinv (p : Port) (blk : Byte) (s : State) : Result :=
  s.within ((Instr.rtcWriteBinv p blk).span s.cfg.offsets) (s.onRtc p (s.raise (.rtcInvalidBlock blk)))

/-- The RTC registers of a port after power-on: reset if the port owns an RTC (R21). -/
def powerOnRtc (e : PortEntry) (r : Rtc) : Rtc := if e.hasRtc then Rtc.powerOn else r

/-- Power-on: the RTC registers of every port that owns an RTC, and nothing else (R21, R150, R151). -/
def State.powerOn (s : State) : State := { s with rtc := Vector.zipWith powerOnRtc s.ports s.rtc }

end Sys2Proof.Machine
end

