-- ==== Sys2Proof/Machine/Dispatch.lean ====
section
/-! DEFINITION. One arm per command (spec 41_controller_commands.md R80, R84). -/

namespace Sys2Proof.Machine

open Sys2Proof

/-- The meaning of a command, one arm per row of spec/opcode_table.json. -/
def exec (i : Instr) (s : State) : Host.Outcome State Fault Refusal :=
  match i with
  | .status p => Sys2Proof.Machine.execStatus p s
  | .reset p => Sys2Proof.Machine.execReset p s
  | .controllerRead p => Sys2Proof.Machine.execControllerRead p s
  | .pakRead p => Sys2Proof.Machine.execPakRead p s
  | .pakWrite p => Sys2Proof.Machine.execPakWrite p s
  | .rtcStatus p => Sys2Proof.Machine.execRtcStatus p s
  | .rtcReadB0 p => Sys2Proof.Machine.execRtcReadB0 p s
  | .rtcReadB1 p => Sys2Proof.Machine.execRtcReadB1 p s
  | .rtcReadB2 p => Sys2Proof.Machine.execRtcReadB2 p s
  | .rtcReadBinv p blk => Sys2Proof.Machine.execRtcReadBinv p blk s
  | .rtcWriteB0 p => Sys2Proof.Machine.execRtcWriteB0 p s
  | .rtcWriteB1 p => Sys2Proof.Machine.execRtcWriteB1 p s
  | .rtcWriteB2 p => Sys2Proof.Machine.execRtcWriteB2 p s
  | .rtcWriteBinv p blk => Sys2Proof.Machine.execRtcWriteBinv p blk s
  | .unknown p op => Sys2Proof.Machine.execUnknown p op s
  | .controllerReadExec p => Sys2Proof.Machine.execControllerReadExec p s
  | .nop2 p op => Sys2Proof.Machine.execNop2 p op s
  | .crc8 => Sys2Proof.Machine.execCrc8 s

end Sys2Proof.Machine
end

