-- ==== Sys2Proof/Machine/HostSide.lean ====
section
/-! DEFINITION. What the host and the environment do between commands, and how an invocation's command is fetched
(spec 30_encoding.md R65, R66; 70_reset_and_hazards.md R150, R163). -/

namespace Sys2Proof.Machine

open Sys2Proof

/-- The refusal an edge of the decoder's domain becomes. -/
def refusalOf : DecodeError → Refusal
  | .portOutOfRange => .portOutOfRange
  | .bufferTooShort => .shortBuffer

/-- The host's next event is taken from the queue. -/
def State.popEvent (s : State) : State := { s with pending := s.pending.tail }

/-- The invocation takes its buffer by reference (20_memory.md R31). -/
def State.lend (s : State) (r : BufferRef) : State := { s with lent := r }

/-- The command an invocation names: its entry point, its port index and the bytes of its buffer decoded afresh (R46,
R52). -/
def State.fetch (s : State) (inv : Invocation) : Except DecodeError Instr :=
  decode s.cfg inv.entry inv.port (s.bufferBytes inv.buf)

/-- The host writes its own memory (10_state.md R24). -/
def State.hostStore (s : State) (a : Nat) (bytes : List Byte) : State :=
  { s with mem := s.mem.writeList a bytes }

/-- A table word as the host presents it (L3): the buffer stands at address 0 and is the next thing invoked. -/
def State.placeTableWord (s : State) (nbits w : Nat) : State :=
  let e := tableInvocation s.cfg.offsets nbits w
  { s with
    mem := s.mem.writeList 0 e.bytes
    pending := .invoke { entry := e.entry, port := e.port, buf := { base := 0, len := e.bytes.length } } :: s.pending }

end Sys2Proof.Machine
end

