-- ==== Sys2Proof/Machine/Step.lean ====
section
/-! DEFINITION. One step: the next event of the host or the environment, one invocation being one atomic step
(spec 20_memory.md R44; 70_reset_and_hazards.md R162, R163). -/

namespace Sys2Proof.Machine

open Sys2Proof

/-- One step. With nothing pending the block is idle and holds its state (R148, R150). An invocation decodes its buffer
and runs the command to its end (R13); a rebinding inside the session is refused (R17). -/
def step (s : State) : Host.Outcome State Fault Refusal :=
  match s.pending with
  | [] => .next s
  | .powerOn :: _ => .next s.popEvent.powerOn
  | .store a bytes :: _ => .next (s.popEvent.hostStore a bytes)
  | .rebind _ _ :: _ => .refused .rebindInSession
  | .invoke inv :: _ =>
    match s.fetch inv with
    | .ok i => exec i (s.popEvent.lend inv.buf)
    | .error e => .refused (refusalOf e)

/-- `s` with a table word placed so that the next step fetches and runs it (L2, L3). -/
def State.withFetchWord (s : State) (nbits w : Nat) : State := s.placeTableWord nbits w

end Sys2Proof.Machine
end

