-- ==== Sys2Proof/Safety.lean ====
section
/-! DEFINITION. What counts as a safe run, in the terms the statements use. -/

namespace Sys2Proof

/-! ### Kinds of commands -/

/-- The commands of the RTC family (42_rtc_commands.md). -/
def Instr.isRtc : Instr → Bool
  | .rtcStatus _ | .rtcReadB0 _ | .rtcReadB1 _ | .rtcReadB2 _ | .rtcReadBinv _ _
  | .rtcWriteB0 _ | .rtcWriteB1 _ | .rtcWriteB2 _ | .rtcWriteBinv _ _ => true
  | .status _ | .reset _ | .controllerRead _ | .pakRead _ | .pakWrite _ | .unknown _ _
  | .controllerReadExec _ | .nop2 _ _ | .crc8 => false

/-- The two commands that read the error flag (70_reset_and_hazards.md R158). -/
def Instr.readsFlag : Instr → Bool
  | .status _ | .reset _ => true
  | .controllerRead _ | .pakRead _ | .pakWrite _ | .rtcStatus _ | .rtcReadB0 _ | .rtcReadB1 _ | .rtcReadB2 _
  | .rtcReadBinv _ _ | .rtcWriteB0 _ | .rtcWriteB1 _ | .rtcWriteB2 _ | .rtcWriteBinv _ _ | .unknown _ _
  | .controllerReadExec _ | .nop2 _ _ | .crc8 => false

end Sys2Proof

namespace Sys2Proof.Machine

open Sys2Proof

/-! ### Sessions and invariants -/

/-- Two states of one session: the parameters and the port table are the same (spec 10_state.md R17). -/
def SameSession (s t : State) : Prop := t.cfg = s.cfg ∧ t.ports = s.ports

/-- Every RTC's clock stands at its last-sampled wall time (42_rtc_commands.md R106, last sentences). -/
def State.ClocksSampled (s : State) : Prop := ∀ p : Port, (s.rtcAt p).clock = (s.rtcAt p).last

/-- The invariant of every run: canonical memory, well-formed parameters, clocks at the last sample. -/
structure State.Invariant (s : State) : Prop where
  mem : s.mem.wf
  cfg : s.cfg.WellFormed
  clocks : s.ClocksSampled

/-! ### Conditions under which a command runs -/

/-- The offsets stand at the spec's defaults (00_scope.md R5). -/
abbrev State.DefaultOffsets (s : State) : Prop := s.cfg.offsets = Config.default.offsets

/-- The lent buffer is long enough for a command (20_memory.md R32, R47). -/
abbrev State.Holds (s : State) (i : Instr) : Prop := i.span s.cfg.offsets ≤ s.lent.len

/-- A command that reads the time finds no negative calendar field (42_rtc_commands.md R108; I20). No other command has
such a condition. -/
abbrev State.TimeNatural (s : State) (i : Instr) : Prop := ∀ p : Port, i = .rtcReadB2 p → s.negativeTime p = false

/-! ### Frames -/

/-- The addresses of `buf[i .. j]` of the lent buffer. -/
def State.Indices (s : State) (i j a : Nat) : Prop := s.bufAddr i ≤ a ∧ a ≤ s.bufAddr j

/-- The addresses of the whole lent buffer. -/
def State.InBuffer (s : State) (a : Nat) : Prop := s.lent.base ≤ a ∧ a < s.lent.base + s.lent.len

/-- Every byte of the host's memory reads as before, except at the addresses `W` names. -/
def MemorySameOutside (W : Nat → Prop) (s t : State) : Prop := ∀ a, ¬ W a → t.mem.read a = s.mem.read a

/-- Everything but the host's memory is as before. -/
def OnlyMemory (s t : State) : Prop := t = { s with mem := t.mem }

/-- DeviceAbsent was delivered and nothing else happened (60_exceptions.md R131): bit 7 of `buf[1]` is set, its other
bits, every other byte and the rest of the state are as before. -/
def OnlyFlagRaised (s t : State) : Prop :=
  t.bufRead 1 = s.bufRead 1 ||| 0x80 ∧ MemorySameOutside (s.Indices 1 1) s t ∧ OnlyMemory s t

/-- One event was logged and nothing else happened, memory included. -/
def OnlyLogged (sev : Severity) (k : ErrorKind) (s t : State) : Prop :=
  t = { s with log := s.log ++ [{ severity := sev, kind := k }] }

/-- Two states that differ at most in the ports other than `p` and their RTCs (30_encoding.md R65). -/
structure AgreeAt (p : Port) (s t : State) : Prop where
  cfg : t.cfg = s.cfg
  port : t.port p = s.port p
  rtc : t.rtcAt p = s.rtcAt p
  mem : t.mem = s.mem
  lent : t.lent = s.lent
  pending : t.pending = s.pending
  script : t.script = s.script
  calls : t.calls = s.calls
  log : t.log = s.log

end Sys2Proof.Machine
end

