-- ==== Sys2Proof/Certificates/Slice0/Obligations.lean ====
section
/-! DEFINITION. The statements about the model, for the provers. A docstring cites the rule of spec/ a statement
formalises; where a statement rests on a choice it names the log entry (L<n> is notes/assumptions/<n>.md). -/

open Sys2Proof Sys2Proof.Machine

/-! ### Encoding -/

/-- A few words written out from 30_encoding.md R52, R53 decode to the commands they stand for. The opcode values are
PRESUMED (L11). -/
def Obligations.SampleBuffersDecode : Prop :=
  decode Config.default .phase1 0 [0x01, 0x03, 0x00, 0xEE] = .ok (.status 0) ∧
  decode Config.default .phase1 1 [0x01, 0x03, 0xFF, 0xEE] = .ok (.reset 1) ∧
  decode Config.default .phase1 2 [0x01, 0x04, 0x01, 0xEE] = .ok (.controllerRead 2) ∧
  decode Config.default .phase2 2 [0x01, 0x04, 0x01, 0xEE] = .ok (.controllerReadExec 2) ∧
  decode Config.default .phase1 0 [0x03, 0x21, 0x02, 0x12, 0x3F] = .ok (.pakRead 0) ∧
  decode Config.default .phase1 0 [0x02, 0x09, 0x07, 0x02] = .ok (.rtcReadB2 0) ∧
  decode Config.default .phase1 0 [0x02, 0x09, 0x07, 0xFF] = .ok (.rtcReadBinv 0 0xFF) ∧
  decode Config.default .phase1 0 [0x0B, 0x01, 0x08, 0x01] = .ok (.rtcWriteB1 0) ∧
  decode Config.default .phase1 1 [0x02, 0x01, 0x09, 0xEE] = .ok (.unknown 1 0x09) ∧
  decode Config.default .phase2 0 [0x03, 0x21, 0x02, 0xEE] = .ok (.nop2 0 0x02)

/-- Decode and encode agree: every well-formed command that has an encoding decodes from it, at every port, opcode and
block index, whatever the parameters; only the checksum engine has none (30_encoding.md R53). -/
def Obligations.EveryEncodingDecodesBack : Prop :=
  ∀ (c : Config) (i : Instr), c.WellFormed → i.WellFormed c →
    (∀ e : Encoded, encode c i = some e → decode c e.entry e.port e.bytes = .ok i) ∧
    (encode c i = none ↔ i = .crc8)

/-- What the decoder answers is well formed, is a command at the invocation's own port, and is never the checksum
engine: neither entry point ever selects it (30_encoding.md R53, R65). -/
def Obligations.DecodedCommandsAreWellFormed : Prop :=
  ∀ (c : Config) (entry : EntryPoint) (port : Nat) (bytes : List Byte) (i : Instr),
    decode c entry port bytes = .ok i →
      i.WellFormed c ∧ i ≠ .crc8 ∧ ∃ p : Port, i.port? = some p ∧ p.val = port

/-- The decoder is the opcode table: the first row, in file order, whose mask and match fit the key of bytes 2 and 3. In a
buffer that ends before byte 3 the same holds with any byte in its place, at phase 2 and for every opcode but the two
that have a block index: no row that can match them looks at it (30_encoding.md R52). -/
def Obligations.DecodeIsFirstMatchInTable : Prop :=
  ∀ (c : Config) (entry : EntryPoint) (p : Port) (bytes : List Byte) (op blk : Byte),
    c.offsets.rtcBlock = 3 → bytes[2]? = some op →
    (bytes[3]? = some blk ∨
      bytes[3]? = none ∧ (entry = .phase2 ∨ (op ≠ c.opcodes.rtcRead ∧ op ≠ c.opcodes.rtcWrite))) →
      ∃ i, firstMatch p op blk (tableRows c.opcodes entry) = some i ∧ decode c entry p bytes = .ok i

/-- A table word placed for the next step is fetched and run by it as the command its decoding names (the model's own
interface, L3). -/
def Obligations.PlacedTableWordRunsNext : Prop :=
  ∀ (s : State) (nbits w : Nat) (i : Instr), s.cfg = Config.default → decodeTableWord nbits w = some i →
    ∃ r : BufferRef, step (s.withFetchWord nbits w) =
        exec i { s with mem := (s.withFetchWord nbits w).mem, lent := r } ∧
      Config.default.offsets.longestSpan ≤ r.len

/-! ### The step -/

/-- A step runs the decoded command: with an invocation pending whose buffer decodes to `i`, the step is `exec i` on the
state that has taken the invocation from the queue and holds the lent buffer's reference (20_memory.md R44, R46). -/
def Obligations.StepRunsDecodedCommand : Prop :=
  ∀ (s : State) (inv : Invocation) (rest : List HostEvent) (i : Instr),
    s.pending = .invoke inv :: rest → decode s.cfg inv.entry inv.port (s.bufferBytes inv.buf) = .ok i →
      step s = exec i { s with pending := rest, lent := inv.buf }

/-- Every encoded command, placed anywhere in the host's memory and invoked, runs to its end: the shortest buffer that
carries a command is long enough for it (30_encoding.md R53 to R58, 20_memory.md R47). A read of the time does so where
the calendar answers no negative field (I20; L16). -/
def Obligations.EncodedCommandRunsToItsEnd : Prop :=
  ∀ (s : State) (i : Instr) (e : Encoded) (base : Nat) (rest : List HostEvent),
    s.cfg.WellFormed → i.WellFormed s.cfg → encode s.cfg i = some e → s.TimeNatural i →
    s.bufferBytes ⟨base, e.bytes.length⟩ = e.bytes →
    s.pending = .invoke ⟨e.entry, e.port, ⟨base, e.bytes.length⟩⟩ :: rest →
      ∃ t, step s = .next t ∧ exec i { s with pending := rest, lent := ⟨base, e.bytes.length⟩ } = .next t

/-- Exactly when a step is refused: a rebinding inside the session, a port index outside 0 to 3, a buffer too short to
decode or to run, or a read of the time, on a port with an RTC, for which the calendar answers a negative field
(60_exceptions.md R137; 93_implementation_defined.md I10, I11, I13, I20; L6, L7, L8, L16). -/
def Obligations.StepRefusesExactly : Prop :=
  ∀ (s : State) (r : Refusal), step s = .refused r ↔
    (∃ p e rest, s.pending = .rebind p e :: rest ∧ r = .rebindInSession) ∨
    (∃ inv rest, s.pending = .invoke inv :: rest ∧ nPorts ≤ inv.port ∧ r = .portOutOfRange) ∨
    (∃ inv rest, s.pending = .invoke inv :: rest ∧ inv.port < nPorts ∧ r = .shortBuffer ∧
      ∀ i, decode s.cfg inv.entry inv.port (s.bufferBytes inv.buf) = .ok i → inv.buf.len < i.span s.cfg.offsets) ∨
    (∃ inv rest p, s.pending = .invoke inv :: rest ∧ r = .negativeCalendarField ∧
      decode s.cfg inv.entry inv.port (s.bufferBytes inv.buf) = .ok (.rtcReadB2 p) ∧
      (Instr.rtcReadB2 p).span s.cfg.offsets ≤ inv.buf.len ∧ s.negativeTime p = true)

/-- Under the default offsets a buffer of 38 bytes admits every command: an invocation at a port in range ends in a next
state, whatever the bytes (20_memory.md R32; 92_eei_decisions.md D18); a read of the time does so where the calendar
answers no negative field, and is refused by that name elsewhere (I20; L16). -/
def Obligations.BuffersOf38BytesAdmitEveryCommand : Prop :=
  ∀ (s : State) (inv : Invocation) (rest : List HostEvent), s.DefaultOffsets → s.pending = .invoke inv :: rest →
    inv.port < nPorts → 38 ≤ inv.buf.len →
      ((∀ p, decode s.cfg inv.entry inv.port (s.bufferBytes inv.buf) = .ok (.rtcReadB2 p) → s.negativeTime p = false) →
        ∃ t, step s = .next t) ∧
      (∀ p, decode s.cfg inv.entry inv.port (s.bufferBytes inv.buf) = .ok (.rtcReadB2 p) → s.negativeTime p = true →
        step s = .refused .negativeCalendarField)

/-- Idle without events, and a host's store changes the bytes it names and nothing else (70_reset_and_hazards.md R150;
10_state.md R24). -/
def Obligations.IdleAndHostStores : Prop :=
  (∀ s : State, s.pending = [] → step s = .next s) ∧
  (∀ (s : State) (a : Nat) (bytes : List Byte) (rest : List HostEvent), s.pending = .store a bytes :: rest →
    ∃ t, step s = .next t ∧ t = { s with pending := rest, mem := t.mem } ∧
      (∀ k (h : k < bytes.length), t.readByte (a + k) = bytes[k]) ∧
      MemorySameOutside (fun b => a ≤ b ∧ b < a + bytes.length) s t)

/-- Power-on gives every RTC its reset values and touches nothing else; it may come at any time between invocations
(10_state.md R21, 70_reset_and_hazards.md R150, R151). The reset value of `last` is PRESUMED (L10). -/
def Obligations.PowerOnResetsOwnedRtcsOnly : Prop :=
  ∀ (s : State) (rest : List HostEvent), s.pending = .powerOn :: rest →
    ∃ t, step s = .next t ∧ t = { s with pending := rest, rtc := t.rtc } ∧
      ∀ p : Port, t.rtcAt p =
        if (s.port p).hasRtc then { control := 0x0200, clock := 0, last := 0 } else s.rtcAt p

/-- After the launch of a session the RTC registers of every port have the control register and the clock of power-on and
the block is idle; the reset state is such a launch, with the default parameters (10_state.md R21: "control = `0x0200`",
"offset = 0", for the ports that own an RTC). That the unused registers of a port without an RTC have these values too is
the model's choice (DESIGN CHOICE, L10). -/
def Obligations.LaunchLeavesPowerOnValues : Prop :=
  (∀ (c : Config) (ports : Vector PortEntry nPorts) (p : Port),
    ((State.launch c ports).rtcAt p).control = 0x0200 ∧ ((State.launch c ports).rtcAt p).clock = 0 ∧
      step (State.launch c ports) = .next (State.launch c ports)) ∧
  ∃ ports, State.reset = State.launch Config.default ports

/-! ### What every step keeps -/

/-- Every step keeps the canonical form of memory, the well-formed parameters, and every RTC's clock at its last-sampled
wall time (42_rtc_commands.md R106, derived there). That power-on keeps the last of these rests on the PRESUMED reset
value of `last` (L10, D16), and that a read of block 2 keeps it under every control value on decision D17 (L26). -/
def Obligations.EveryStepKeepsTheRunInvariant : Prop :=
  ∀ s t : State, s.Invariant → step s = .next t → t.Invariant

/-- The invariant holds at the launch of every session with well-formed parameters, so at reset (10_state.md R21). That
the clock equals the last sample at launch rests on the PRESUMED reset value of `last` (L10). -/
def Obligations.LaunchMeetsTheRunInvariant : Prop :=
  (∀ (c : Config) (ports : Vector PortEntry nPorts), c.WellFormed → (State.launch c ports).Invariant) ∧
    State.reset.Invariant

/-- The port table and the parameters are constant over a session: no step writes them (10_state.md R17; L8, L29). -/
def Obligations.EveryStepKeepsTheSession : Prop :=
  ∀ s t : State, step s = .next t → SameSession s t

/-- A command writes only inside its buffer, never the bytes 0 and 2, and of byte 1 only the error flag, which it can
set and never clears (20_memory.md R47; 60_exceptions.md R131). -/
def Obligations.CommandsStayInTheirBuffer : Prop :=
  ∀ (i : Instr) (s t : State), s.cfg.WellFormed → exec i s = .next t →
    MemorySameOutside s.InBuffer s t ∧
    t.mem.read (s.bufAddr 0) = s.mem.read (s.bufAddr 0) ∧ t.mem.read (s.bufAddr 2) = s.mem.read (s.bufAddr 2) ∧
    (t.bufRead 1 = s.bufRead 1 ∨ t.bufRead 1 = s.bufRead 1 ||| 0x80)

/-- No command touches another port's RTC, and the checksum engine touches none (30_encoding.md R65, 40_crc8.md R70). -/
def Obligations.CommandsTouchOnlyTheirPort : Prop :=
  ∀ (i : Instr) (s t : State), exec i s = .next t →
    ∀ q : Port, i.port? ≠ some q → t.rtcAt q = s.rtcAt q

/-- What a command does at its port does not depend on the other ports: run from two states that differ there alone, it
ends in two states that differ there alone, and as they did before (30_encoding.md R65). -/
def Obligations.OtherPortsDoNotMatter : Prop :=
  ∀ (i : Instr) (p : Port) (s₁ s₂ t₁ : State), i.port? = some p → AgreeAt p s₁ s₂ → exec i s₁ = .next t₁ →
    ∃ t₂, exec i s₂ = .next t₂ ∧ AgreeAt p t₁ t₂ ∧ t₂.ports = s₂.ports ∧ ∀ q, q ≠ p → t₂.rtcAt q = s₂.rtcAt q

/-- Every command of the table, the checksum engine among them, ends in a next state when its buffer is long enough, and
is otherwise refused as too short (60_exceptions.md R137, 20_memory.md R32; L6); only a read of the time is refused in a
long enough buffer, and exactly where the calendar answers a negative field (I20; L16). -/
def Obligations.EveryCommandCompletesInALongEnoughBuffer : Prop :=
  ∀ (i : Instr) (s : State),
    (s.Holds i → s.TimeNatural i → ∃ t, exec i s = .next t) ∧
    (s.Holds i → ¬ s.TimeNatural i → exec i s = .refused .negativeCalendarField) ∧
    (¬ s.Holds i → exec i s = .refused .shortBuffer)

/-- A command delivers at most one error and makes at most one collaborator call, and one that logs leaves the error
flag as it was (60_exceptions.md R140; 20_memory.md R38, R40, R41 for the calls). -/
def Obligations.AtMostOneErrorAndOneCall : Prop :=
  ∀ (i : Instr) (s t : State), s.cfg.WellFormed → exec i s = .next t →
    (t.log = s.log ∨ (∃ ev, t.log = s.log ++ [ev]) ∧ t.bufRead 1 = s.bufRead 1) ∧
    (t.calls = s.calls ∨ ∃ c, t.calls = s.calls ++ [c])

/-- Who calls a collaborator, and with what: the input source is called by phase 2 of a controller read on a connected
port, the wall clock by RTC_READ of block 2, a backend by a pak command on a connected port with a pak that has one,
at the aligned address (20_memory.md R38, R40, R41). -/
def Obligations.CollaboratorsAreCalledByTheseCommandsOnly : Prop :=
  ∀ (i : Instr) (s t : State) (c : Call), exec i s = .next t → t.calls = s.calls ++ [c] →
    (∃ p, i = .controllerReadExec p ∧ s.connected p = true ∧ c = .inputSource p) ∨
    (∃ p, i = .rtcReadB2 p ∧ (s.port p).hasRtc = true ∧ c = .wallClock) ∨
    (∃ p, i = .pakRead p ∧ s.connected p = true ∧ pakPresent (s.port p).pak = true ∧
      c = .readBlock p (chunkAddress (s.bufRead 3) (s.bufRead 4))) ∨
    (∃ p, i = .pakWrite p ∧ s.connected p = true ∧ pakPresent (s.port p).pak = true ∧
      c = .writeBlock p (chunkAddress (s.bufRead 3) (s.bufRead 4)) s.pakData)

/-- Every command but STATUS and RESET runs alike whether the host pre-set the error flag or not, whatever well-formed
parameters the session has: the two runs end in states that differ in no byte but byte 1 (70_reset_and_hazards.md
R158). -/
def Obligations.PresetFlagMattersToStatusAndResetOnly : Prop :=
  ∀ (i : Instr) (s t : State), s.cfg.WellFormed → i.readsFlag = false → exec i s = .next t →
    ∃ u, exec i s.setErrorFlag = .next u ∧ OnlyMemory t u ∧ MemorySameOutside (s.Indices 1 1) t u

/-- A buffer that only the block touched decodes at phase 2 as it did before phase 1: nothing is kept between the phases
but the buffer, and no command writes the opcode (20_memory.md R46). -/
def Obligations.PhaseTwoDecodesTheSameOpcode : Prop :=
  ∀ (i : Instr) (s t : State) (port : Nat), s.cfg.WellFormed → exec i s = .next t →
    decode t.cfg .phase2 port (t.bufferBytes s.lent) = decode s.cfg .phase2 port (s.bufferBytes s.lent)

/-! ### STATUS, RESET, CONTROLLER_READ, the unknown opcodes and phase 2 -/

/-- STATUS and RESET: nothing with the error flag already set; else only the flag on a disconnected port; else the type
code low byte first at 3 and 4, the pak status at 5, and nothing else (41_controller_commands.md R81, R82). The offsets
are PRESUMED (L12), the status byte of `None` and `Unknown` is decision D6 (L25). -/
def Obligations.StatusAndResetAnswer : Prop :=
  ∀ (i : Instr) (p : Port) (s : State), (i = .status p ∨ i = .reset p) → s.DefaultOffsets → s.Holds i →
    ∃ t, exec i s = .next t ∧
      (s.bufRead 1 &&& 0x80 ≠ 0 → t = s) ∧
      (s.bufRead 1 &&& 0x80 = 0 → s.connected p = false → OnlyFlagRaised s t) ∧
      (s.bufRead 1 &&& 0x80 = 0 → s.connected p = true →
        OnlyMemory s t ∧ MemorySameOutside (s.Indices 3 5) s t ∧
        t.bufRead 3 = s.cfg.controllerTypeCode.extractLsb' 0 8 ∧
        t.bufRead 4 = s.cfg.controllerTypeCode.extractLsb' 8 8 ∧
        t.bufRead 5 = if (s.port p).pak = .mem ∨ (s.port p).pak = .rumble ∨ (s.port p).pak = .transfer then 1 else 0)

/-- The RESET command is no reset: it changes nothing but bytes of its buffer, so no RTC register and no port, and does
exactly what STATUS does (41_controller_commands.md R82, 70_reset_and_hazards.md R152). -/
def Obligations.ResetCommandResetsNothing : Prop :=
  ∀ (p : Port) (s t : State), exec (.reset p) s = .next t →
    OnlyMemory s t ∧ MemorySameOutside s.InBuffer s t ∧ exec (.status p) s = .next t

/-- CONTROLLER_READ at phase 1 changes nothing on a connected port and raises only the error flag on a disconnected
one; it writes no data and reads no flag (41_controller_commands.md R83). -/
def Obligations.ControllerReadSetupMarksOnlyTheFlag : Prop :=
  ∀ (p : Port) (s : State), s.Holds (.controllerRead p) →
    (s.connected p = true → exec (.controllerRead p) s = .next s) ∧
    (s.connected p = false → ∃ t, exec (.controllerRead p) s = .next t ∧ OnlyFlagRaised s t)

/-- CONTROLLER_READ.EXEC on a connected port calls the input source once and stores its word at 3 to 6, low byte first;
on a disconnected port it changes nothing (41_controller_commands.md R84). The offset and the byte order are PRESUMED
(L12); that it asks connectivity afresh is decision D8 (L24). The word is any value. -/
def Obligations.ControllerReadExecLatchesTheWord : Prop :=
  ∀ (p : Port) (s : State), s.DefaultOffsets → s.Holds (.controllerReadExec p) →
    (s.connected p = false → exec (.controllerReadExec p) s = .next s) ∧
    (s.connected p = true → ∃ t, exec (.controllerReadExec p) s = .next t ∧
      t = { s with mem := t.mem, calls := s.calls ++ [.inputSource p],
                   script := { s.script with words := s.script.words.tail } } ∧
      MemorySameOutside (s.Indices 3 6) s t ∧
      t.bufRead 6 ++ t.bufRead 5 ++ t.bufRead 4 ++ t.bufRead 3 = s.nextWord p)

/-- An opcode outside the eight decodes to UNKNOWN at phase 1, and UNKNOWN changes nothing at all
(41_controller_commands.md R88, 60_exceptions.md R132). -/
def Obligations.UnknownOpcodesAreIgnored : Prop :=
  ∀ (p : Port) (op : Byte) (s : State),
    (∀ bytes : List Byte, bytes[2]? = some op → op ∉ s.cfg.opcodes.all →
      decode s.cfg .phase1 p bytes = .ok (.unknown p op)) ∧
    (s.Holds (.unknown p op) → exec (.unknown p op) s = .next s)

/-- Phase 2 with any opcode but controller-read decodes to NOP2, and NOP2 changes nothing at all
(41_controller_commands.md R85; decision D8, L24). -/
def Obligations.PhaseTwoOfOtherOpcodesDoesNothing : Prop :=
  ∀ (p : Port) (op : Byte) (s : State),
    (∀ bytes : List Byte, bytes[2]? = some op → op ≠ s.cfg.opcodes.controllerRead →
      decode s.cfg .phase2 p bytes = .ok (.nop2 p op)) ∧
    (s.Holds (.nop2 p op) → exec (.nop2 p op) s = .next s)

/-! ### Paks and the checksum -/

/-- The pak address: bits 15:8 are `buf[3]`, bits 7:5 are `buf[4][7:5]`, bits 4:0 are zero whatever the host put there;
every aligned value can be formed (30_encoding.md R59). -/
def Obligations.PakAddressIsChunkAligned : Prop :=
  (∀ (hi lo : Byte) (k : Nat), (chunkAddress hi lo).getLsbD k =
    if k < 5 then false else if k < 8 then lo.getLsbD k else hi.getLsbD (k - 8)) ∧
  (∀ a : BitVec 16, a &&& 0x001F = 0 → ∃ hi lo : Byte, chunkAddress hi lo = a) ∧
  (∀ s : State, s.pakAddress = chunkAddress (s.bufRead 3) (s.bufRead 4))

/-- PAK_READ from a pak with a backend: one read at the aligned address, the block it answers at 5 to 36, its checksum
at 37, nothing else (41_controller_commands.md R86). The data offset is PRESUMED (L12). The block is any value. -/
def Obligations.PakReadDeliversTheBackendsBlock : Prop :=
  ∀ (p : Port) (s : State), s.DefaultOffsets → s.Holds (.pakRead p) → s.connected p = true →
    pakPresent (s.port p).pak = true →
      ∃ t, exec (.pakRead p) s = .next t ∧
        t = { s with mem := t.mem, calls := s.calls ++ [.readBlock p s.pakAddress],
                     script := { s.script with blocks := s.script.blocks.tail } } ∧
        MemorySameOutside (s.Indices 5 37) s t ∧
        (∀ k (h : k < blockLen), t.bufRead (5 + k) = (s.nextBlock p s.pakAddress)[k]) ∧
        t.bufRead 37 = crc8 s.cfg.crcInit (s.nextBlock p s.pakAddress)

/-- PAK_READ with no pak or an unknown one: zeros at 5 to 36, the checksum of zeros at 37, no backend call; an unknown
pak is logged once, as a warning (41_controller_commands.md R86, 60_exceptions.md R133, 90_conflicts.md C1). -/
def Obligations.PakReadWithoutABackendZeroFills : Prop :=
  ∀ (p : Port) (s : State), s.DefaultOffsets → s.Holds (.pakRead p) → s.connected p = true →
    pakPresent (s.port p).pak = false →
      ∃ t, exec (.pakRead p) s = .next t ∧
        t = { s with mem := t.mem, log := t.log } ∧
        t.log = s.log ++ (if (s.port p).pak = .unknown
          then [{ severity := .warning, kind := .unsupportedAccessory .unknown }] else []) ∧
        MemorySameOutside (s.Indices 5 37) s t ∧
        (∀ k, k < blockLen → t.bufRead (5 + k) = 0) ∧
        t.bufRead 37 = crc8 s.cfg.crcInit (Vector.replicate blockLen 0)

/-- PAK_WRITE on a connected port: the host's 32 bytes stay as they are, their checksum is stored at 37, and a pak with
a backend gets one write of them at the aligned address; with none there is no call, and an unknown pak is logged once
(41_controller_commands.md R87). That an unknown pak is logged and not written is decision D11 (L25). -/
def Obligations.PakWriteHandsOnTheHostsBlock : Prop :=
  ∀ (p : Port) (s : State), s.DefaultOffsets → s.Holds (.pakWrite p) → s.connected p = true →
    ∃ t, exec (.pakWrite p) s = .next t ∧
      t = { s with mem := t.mem, calls := t.calls, log := t.log } ∧
      t.calls = s.calls ++ (if pakPresent (s.port p).pak then [.writeBlock p s.pakAddress s.pakData] else []) ∧
      t.log = s.log ++ (if (s.port p).pak = .unknown
        then [{ severity := .warning, kind := .unsupportedAccessory .unknown }] else []) ∧
      MemorySameOutside (s.Indices 37 37) s t ∧
      t.bufRead 37 = crc8 s.cfg.crcInit s.pakData

/-- PAK_READ and PAK_WRITE on a disconnected port raise the error flag and do nothing else, whatever the pak: no data,
no checksum, no call, no log (decision D10, 60_exceptions.md R140; L25). -/
def Obligations.PakCommandsOnADisconnectedPort : Prop :=
  ∀ (i : Instr) (p : Port) (s : State), (i = .pakRead p ∨ i = .pakWrite p) → s.Holds i → s.connected p = false →
    ∃ t, exec i s = .next t ∧ OnlyFlagRaised s t

/-- A block written to a backend and read back at the same address through the protocol comes back with the checksum the
write answered, if the backend's answer to that read is the block written (20_memory.md R37 as a hypothesis on the one
answer, L19). Between the two the host may have prepared another buffer. -/
def Obligations.PakRoundTrip : Prop :=
  ∀ (p : Port) (s t u : State), s.DefaultOffsets → s.connected p = true → pakPresent (s.port p).pak = true →
    exec (.pakWrite p) s = .next t → u = { t with mem := u.mem, lent := u.lent } → u.Holds (.pakRead p) →
    u.pakAddress = s.pakAddress → u.nextBlock p u.pakAddress = s.pakData →
      ∃ v, exec (.pakRead p) u = .next v ∧ v.pakData = s.pakData ∧ v.bufRead 37 = t.bufRead 37 ∧
        v.calls = s.calls ++ [.writeBlock p s.pakAddress s.pakData, .readBlock p s.pakAddress]

/-- CRC8 on its own stores the checksum of `buf[5..36]` at 37 and changes nothing else (40_crc8.md R70; L27). -/
def Obligations.ChecksumEngineStoresOneByte : Prop :=
  ∀ s : State, s.DefaultOffsets → s.Holds .crc8 →
    ∃ t, exec .crc8 s = .next t ∧ OnlyMemory s t ∧ MemorySameOutside (s.Indices 37 37) s t ∧
      t.bufRead 37 = crc8 s.cfg.crcInit (Vector.ofFn fun k : Fin blockLen => s.bufRead (5 + k.val))

/-- The final round reads no input: the checksum is 32 rounds over the block's bytes, most significant bit first, and
then eight bit steps of a zero byte (40_crc8.md R72). -/
def Obligations.FinalRoundFeedsAZeroByte : Prop :=
  ∀ (init : Byte) (block : Block),
    crc8 init block = ((block.toList ++ [0]).flatMap fun b : Byte => [7, 6, 5, 4, 3, 2, 1, 0].map b.getLsbD).foldl crcBit init

/-- The checksum is linear: over the exclusive or of two blocks and of two start values it is the exclusive or of the
checksums (40_crc8.md R75). -/
def Obligations.ChecksumIsLinear : Prop :=
  ∀ (x y : Byte) (a b : Block), crc8 (x ^^^ y) (Vector.zipWith (· ^^^ ·) a b) = crc8 x a ^^^ crc8 y b

/-- The polynomial over GF(2) whose coefficients are the bits of a byte. -/
noncomputable def Sys2Proof.bytePolynomial (b : Byte) : Polynomial (ZMod 2) :=
  ∑ k : Fin 8, if b.getLsbD k.val then Polynomial.X ^ k.val else 0

/-- The polynomial of a block's 256 bits in the order the checksum consumes them: the first byte's most significant bit
is the coefficient of x^255 (40_crc8.md R75). -/
noncomputable def Sys2Proof.blockPolynomial (block : Block) : Polynomial (ZMod 2) :=
  ∑ i : Fin blockLen, bytePolynomial block[i] * Polynomial.X ^ (8 * (31 - i.val))

/-- The checksum from start value 0 is polynomial division over GF(2): the remainder of M(x) x^8 by
G(x) = x^8 + x^7 + x^2 + 1 (40_crc8.md R75). The start value 0 is PRESUMED, the truncating shift is decision D12
(L13). -/
def Obligations.ChecksumIsAPolynomialRemainder : Prop :=
  ∀ block : Block,
    bytePolynomial (crc8 0 block) =
      (blockPolynomial block * Polynomial.X ^ 8) %ₘ
        (Polynomial.X ^ 8 + Polynomial.X ^ 7 + Polynomial.X ^ 2 + 1)

/-! ### The RTC -/

/-- Every RTC command on a port that owns no RTC does what `RTC_ABSENT_POLICY` says: the error flag alone, or nothing;
the block index is not looked at (42_rtc_commands.md R100, decision D13; L14). -/
def Obligations.RtcCommandsOnAPortWithoutRtc : Prop :=
  ∀ (i : Instr) (p : Port) (s : State), i.isRtc = true → i.port? = some p → s.Holds i → (s.port p).hasRtc = false →
    (s.cfg.rtcAbsentPolicy = .setErrorBit → ∃ t, exec i s = .next t ∧ OnlyFlagRaised s t) ∧
    (s.cfg.rtcAbsentPolicy = .ignore → exec i s = .next s)

/-- RTC_STATUS: the type code low byte first at 3 and 4, success at 5, nothing else (42_rtc_commands.md R101). The
offsets and values are PRESUMED (L12). -/
def Obligations.RtcStatusAnswers : Prop :=
  ∀ (p : Port) (s : State), s.DefaultOffsets → s.Holds (.rtcStatus p) → (s.port p).hasRtc = true →
    ∃ t, exec (.rtcStatus p) s = .next t ∧ OnlyMemory s t ∧ MemorySameOutside (s.Indices 3 5) s t ∧
      t.bufRead 3 = s.cfg.rtcTypeCode.extractLsb' 0 8 ∧ t.bufRead 4 = s.cfg.rtcTypeCode.extractLsb' 8 8 ∧
      t.bufRead 5 = s.cfg.rtcStatusOk

/-- RTC_READ of block 0: the control register at 4 and 5, low byte first, success at 12, and nothing else
(42_rtc_commands.md R103). The offsets are PRESUMED (L12). -/
def Obligations.RtcReadOfBlock0ShowsControl : Prop :=
  ∀ (p : Port) (s : State), s.DefaultOffsets → s.Holds (.rtcReadB0 p) → (s.port p).hasRtc = true →
    ∃ t, exec (.rtcReadB0 p) s = .next t ∧ OnlyMemory s t ∧
      MemorySameOutside (fun a => s.Indices 4 5 a ∨ s.Indices 12 12 a) s t ∧
      t.bufRead 4 = (s.rtcAt p).control.extractLsb' 0 8 ∧ t.bufRead 5 = (s.rtcAt p).control.extractLsb' 8 8 ∧
      t.bufRead 12 = s.cfg.rtcStatusOk

/-- RTC_WRITE of block 0 loads all 16 bits of the control register from 4 and 5, low byte first, whatever the lock bits,
answers success at 12 and touches no clock (42_rtc_commands.md R112). The offsets are PRESUMED (L12), the status byte
is decision D15 (L23). -/
def Obligations.RtcWriteOfBlock0SetsControl : Prop :=
  ∀ (p : Port) (s : State), s.DefaultOffsets → s.Holds (.rtcWriteB0 p) → (s.port p).hasRtc = true →
    ∃ t, exec (.rtcWriteB0 p) s = .next t ∧ t = { s with mem := t.mem, rtc := t.rtc } ∧
      (t.rtcAt p).control.extractLsb' 0 8 = s.bufRead 4 ∧ (t.rtcAt p).control.extractLsb' 8 8 = s.bufRead 5 ∧
      (t.rtcAt p).clock = (s.rtcAt p).clock ∧ (t.rtcAt p).last = (s.rtcAt p).last ∧
      (∀ q, q ≠ p → t.rtcAt q = s.rtcAt q) ∧
      MemorySameOutside (s.Indices 12 12) s t ∧ t.bufRead 12 = s.cfg.rtcStatusOk

/-- The control register read back after a write is what was written, in whatever buffer the host presents next
(42_rtc_commands.md R103, R112; offsets PRESUMED, L12). -/
def Obligations.ControlWrittenReadsBack : Prop :=
  ∀ (p : Port) (s t u : State), s.DefaultOffsets → (s.port p).hasRtc = true →
    exec (.rtcWriteB0 p) s = .next t → u = { t with mem := u.mem, lent := u.lent } → u.Holds (.rtcReadB0 p) →
      ∃ v, exec (.rtcReadB0 p) u = .next v ∧ v.bufRead 4 = s.bufRead 4 ∧ v.bufRead 5 = s.bufRead 5

/-- RTC_READ of block 1 is not implemented: one UnimplementedFeature event, whose severity the source does not give, and
nothing else (42_rtc_commands.md R104). -/
def Obligations.RtcReadOfBlock1OnlyLogs : Prop :=
  ∀ (p : Port) (s : State), s.Holds (.rtcReadB1 p) → (s.port p).hasRtc = true →
    ∃ sev t, exec (.rtcReadB1 p) s = .next t ∧ OnlyLogged sev (.unimplementedFeature .rtcReadBlock1) s t

/-- An invalid block index is logged once as an error, with the index, and changes nothing else, for reads and for
writes, whatever the lock bits (42_rtc_commands.md R110, R115). -/
def Obligations.InvalidRtcBlocksAreOnlyLogged : Prop :=
  ∀ (i : Instr) (p : Port) (blk : Byte) (s : State), (i = .rtcReadBinv p blk ∨ i = .rtcWriteBinv p blk) → s.Holds i →
    (s.port p).hasRtc = true → ∃ t, exec i s = .next t ∧ OnlyLogged .error (.rtcInvalidBlock blk) s t

/-- Writes of block 1 and 2: with the block's lock bit set nothing happens and nothing is logged; with it clear one
UnimplementedFeature event is logged and nothing else happens, so the time cannot be set
(42_rtc_commands.md R113, R114). -/
def Obligations.RtcWritesOfBlocks1And2 : Prop :=
  ∀ (p : Port) (s : State), (s.port p).hasRtc = true →
    (s.Holds (.rtcWriteB1 p) →
      ((s.rtcAt p).control.getLsbD 0 = true → exec (.rtcWriteB1 p) s = .next s) ∧
      ((s.rtcAt p).control.getLsbD 0 = false →
        ∃ sev t, exec (.rtcWriteB1 p) s = .next t ∧ OnlyLogged sev (.unimplementedFeature .rtcWriteBlock1) s t)) ∧
    (s.Holds (.rtcWriteB2 p) →
      ((s.rtcAt p).control.getLsbD 1 = true → exec (.rtcWriteB2 p) s = .next s) ∧
      ((s.rtcAt p).control.getLsbD 1 = false →
        ∃ sev t, exec (.rtcWriteB2 p) s = .next t ∧ OnlyLogged sev (.unimplementedFeature .rtcWriteBlock2) s t))

/-- A lock bit written through block 0 protects its block at once: after a control write whose low byte has bit 0 (bit 1)
set, a write of block 1 (block 2) in any long enough buffer changes nothing and is not reported
(42_rtc_commands.md R112, R113, R114; the offset of the low byte is PRESUMED, L12). -/
def Obligations.LockBitsProtectTheirBlock : Prop :=
  ∀ (p : Port) (s t u : State), s.DefaultOffsets → (s.port p).hasRtc = true →
    exec (.rtcWriteB0 p) s = .next t → u = { t with mem := u.mem, lent := u.lent } →
      ((s.bufRead 4).getLsbD 0 = true → u.Holds (.rtcWriteB1 p) → exec (.rtcWriteB1 p) u = .next u) ∧
      ((s.bufRead 4).getLsbD 1 = true → u.Holds (.rtcWriteB2 p) → exec (.rtcWriteB2 p) u = .next u)

/-- RTC_READ of block 2: one wall-clock call, the clock advanced by the signed delta since the last sample, the sample
kept, and the eight time bytes at 4 to 11 in the normative order, success at 12; no control bit is consulted
(42_rtc_commands.md R105, R106, R107). The wall time is any value. That no control bit is consulted is decision D17
(L26). The offsets are PRESUMED (L12), the status byte is decision D15 (L23). The year is a natural here;
`RtcReadOfBlock2RefusesNegativeYears` is about the others. -/
def Obligations.RtcReadOfBlock2TellsTheTime : Prop :=
  ∀ (p : Port) (s : State), s.DefaultOffsets → s.Holds (.rtcReadB2 p) → (s.port p).hasRtc = true →
    let now := s.nextTime
    let clock := (s.rtcAt p).clock + (now - (s.rtcAt p).last)
    let f := calendar s.cfg.calendar clock
    0 ≤ f.year → ∃ t, exec (.rtcReadB2 p) s = .next t ∧
      t = { s with mem := t.mem, rtc := t.rtc, calls := s.calls ++ [.wallClock],
                   script := { s.script with times := s.script.times.tail } } ∧
      t.rtcAt p = { control := (s.rtcAt p).control, clock := clock, last := now } ∧
      (∀ q, q ≠ p → t.rtcAt q = s.rtcAt q) ∧
      MemorySameOutside (s.Indices 4 12) s t ∧
      t.bufRead 4 = bcd f.sec ∧ t.bufRead 5 = bcd f.min ∧ t.bufRead 6 = 0x80 ||| bcd f.hour ∧
      t.bufRead 7 = bcd f.mday ∧ t.bufRead 8 = bcd f.wday ∧ t.bufRead 9 = bcd (f.mon + 1) ∧
      t.bufRead 10 = bcd (f.year % 100).toNat ∧ t.bufRead 11 = bcd (f.year / 100).toNat ∧
      t.bufRead 12 = s.cfg.rtcStatusOk

/-- RTC_READ of block 2 is refused, with no step at all, where the calendar of the advanced clock answers a negative field,
on which BCD is not defined; only the year can be one, and under the default calendar it is negative exactly before
1900-01-01 (42_rtc_commands.md R108; 93_implementation_defined.md I20; L16). -/
def Obligations.RtcReadOfBlock2RefusesNegativeYears : Prop :=
  (∀ (p : Port) (s : State), s.Holds (.rtcReadB2 p) → (s.port p).hasRtc = true →
    (calendar s.cfg.calendar ((s.rtcAt p).clock + (s.nextTime - (s.rtcAt p).last))).year < 0 →
      exec (.rtcReadB2 p) s = .refused .negativeCalendarField) ∧
  ∀ t : Int, (utcCalendar t).year < 0 ↔ t < -2208988800

/-- Where the clock stands at the last sample, a read of block 2 leaves it at the wall time sampled, so it follows a wall
clock that steps back (42_rtc_commands.md R106, derived there). That it does so under every control value is decision D17
(L26). -/
def Obligations.ClockFollowsTheWallClock : Prop :=
  ∀ (p : Port) (s t : State), (s.port p).hasRtc = true → (s.rtcAt p).clock = (s.rtcAt p).last →
    exec (.rtcReadB2 p) s = .next t → (t.rtcAt p).clock = s.nextTime ∧ (t.rtcAt p).last = s.nextTime

/-- BCD packing: tens digit in bits 7:4, units digit in bits 3:0, hundreds dropped (42_rtc_commands.md R108). -/
def Obligations.BcdPacksTwoDecimalDigits : Prop :=
  ∀ n : Nat, (bcd n).extractLsb' 4 4 = BitVec.ofNat 4 (n % 100 / 10) ∧
    (bcd n).extractLsb' 0 4 = BitVec.ofNat 4 (n % 100 % 10) ∧ bcd n = bcd (n % 100) ∧
    (n < 100 → (bcd n).toNat / 16 * 10 + (bcd n).toNat % 16 = n)

/-- Whether a year of the Gregorian calendar has 366 days. -/
def Sys2Proof.leapYear (y : Int) : Bool := (y % 4 == 0 && y % 100 != 0) || y % 400 == 0

/-- The lengths of the months of a year, January first. -/
def Sys2Proof.monthLengths (y : Int) : List Nat :=
  [31, if leapYear y then 29 else 28, 31, 30, 31, 30, 31, 31, 30, 31, 30, 31]

/-- The days of the proleptic Gregorian calendar from 0001-01-01 to the first of January of a year. -/
def Sys2Proof.daysBeforeYear (y : Int) : Int := 365 * (y - 1) + (y - 1) / 4 - (y - 1) / 100 + (y - 1) / 400

/-- The default calendar is the proleptic Gregorian calendar in UTC: every timestamp's fields are in range, the date they
name is as many days after 1970-01-01 (the 719163rd day of the calendar) as the timestamp says, the time of day makes up
its seconds, and 1970-01-01 is a Thursday (42_rtc_commands.md R109; PRESUMED, L15). -/
def Obligations.DefaultCalendarIsProlepticGregorian : Prop :=
  ∀ t : Int,
    let f := utcCalendar t
    let y := f.year + 1900
    f.sec < 60 ∧ f.min < 60 ∧ f.hour < 24 ∧ f.wday < 7 ∧ f.mon < 12 ∧ 1 ≤ f.mday ∧
    f.mday ≤ (monthLengths y).getD f.mon 0 ∧
    daysBeforeYear y + (((monthLengths y).take f.mon).sum : Nat) + f.mday = 719163 + t / 86400 ∧
    (f.hour * 3600 + f.min * 60 + f.sec : Nat) = t % 86400 ∧
    (f.wday : Int) = (t / 86400 + 4) % 7
end

