-- ==== Sys2Proof/Laws/Decode.lean ====
section
/-! SUPPORT. The decode key under the table's two masks, and the buffers the encoder writes. -/

namespace Sys2Proof

theorem decodeKey_getElem (op blk : Byte) (k : Nat) (hk : k < 16) :
    (decodeKey op blk)[k] = if k < 8 then blk.getLsbD k else op.getLsbD (k - 8) := by
  by_cases h : k < 8
  · simp [decodeKey, BitVec.getElem_or, BitVec.getElem_shiftLeft, BitVec.getElem_setWidth, h]
  · simp [decodeKey, BitVec.getElem_or, BitVec.getElem_shiftLeft, BitVec.getElem_setWidth, h,
      BitVec.getLsbD_of_ge blk k (by omega)]

/-- A key determines its two bytes. -/
theorem decodeKey_inj {op blk op' blk' : Byte} (h : decodeKey op blk = decodeKey op' blk') : op = op' ∧ blk = blk' := by
  have e : ∀ k (hk : k < 16), (decodeKey op blk)[k] = (decodeKey op' blk')[k] := fun k hk => by rw [h]
  constructor
  · ext k hk
    have := e (8 + k) (by omega)
    simpa [decodeKey_getElem, BitVec.getLsbD_eq_getElem hk] using this
  · ext k hk
    have := e k (by omega)
    simpa [decodeKey_getElem, hk, BitVec.getLsbD_eq_getElem hk] using this

theorem opcodeMask_getElem : ∀ k : Fin 16, (0xFF00#16)[k] = decide (8 ≤ k.val) := by decide

/-- Under mask 0xFF00 a key shows its opcode byte alone (spec 30_encoding.md R52). -/
theorem decodeKey_masked (op blk : Byte) : decodeKey op blk &&& 0xFF00#16 = decodeKey op 0 := by
  ext k hk
  have := opcodeMask_getElem ⟨k, hk⟩
  simp only [Fin.getElem_fin] at this
  rw [BitVec.getElem_and, this, decodeKey_getElem, decodeKey_getElem]
  by_cases h : k < 8
  · simp [h]
  · simp [h, Nat.le_of_not_lt h]

theorem decodeKey_unmasked (op blk : Byte) : decodeKey op blk &&& 0xFFFF#16 = decodeKey op blk := by
  have : (0xFFFF#16) = BitVec.allOnes 16 := by decide
  rw [this, BitVec.and_allOnes]

/-- When a row of mask 0xFF00 matches. -/
theorem opcodeRow_matches {op blk x : Byte} : decodeKey op blk &&& 0xFF00#16 = decodeKey x 0 ↔ op = x := by
  rw [decodeKey_masked]
  exact ⟨fun h => (decodeKey_inj h).1, fun h => by rw [h]⟩

/-- When a row of mask 0xFFFF matches. -/
theorem blockRow_matches {op blk x y : Byte} : decodeKey op blk &&& 0xFFFF#16 = decodeKey x y ↔ op = x ∧ blk = y := by
  rw [decodeKey_unmasked]
  exact ⟨decodeKey_inj, fun h => by rw [h.1, h.2]⟩

/-- A catch-all row of mask 0 matches every key. -/
theorem catchAll_matches (op blk : Byte) : decodeKey op blk &&& 0x0000#16 = 0x0000#16 := by simp

@[simp] theorem opcodeBuffer_length (n : Nat) (op : Byte) : (opcodeBuffer n op).length = n := by simp [opcodeBuffer]

@[simp] theorem blockBuffer_length (o : Offsets) (n : Nat) (op blk : Byte) : (blockBuffer o n op blk).length = n := by
  simp [blockBuffer]

/-- Index 2 of an encoded buffer holds the opcode (R50). -/
theorem opcodeBuffer_opcode {n : Nat} (h : offOpcode < n) (op : Byte) : (opcodeBuffer n op)[offOpcode]? = some op := by
  simp [opcodeBuffer, h]

theorem blockBuffer_opcode {o : Offsets} {n : Nat} (h : offOpcode < n) (ho : offOpcode < o.rtcBlock) (op blk : Byte) :
    (blockBuffer o n op blk)[offOpcode]? = some op := by
  rw [blockBuffer, List.getElem?_set_ne (by omega)]
  exact opcodeBuffer_opcode h op

theorem blockBuffer_block {o : Offsets} {n : Nat} (h : o.rtcBlock < n) (op blk : Byte) :
    (blockBuffer o n op blk)[o.rtcBlock]? = some blk := by
  simp [blockBuffer, h]

/-- Every command needs its header (R47). -/
theorem header_lt_span (o : Offsets) (i : Instr) : offOpcode < i.span o := by
  cases i <;> simp only [Instr.span, Offsets.statusSpan, Offsets.headerSpan, Offsets.pakSpan, Offsets.rtcSpan,
    Offsets.buttonsSpan, offOpcode, offAddrLo] <;> omega

/-- A block command's span takes in its block index. -/
theorem block_lt_rtcSpan (o : Offsets) : o.rtcBlock < o.rtcSpan := by
  simp only [Offsets.rtcSpan]; omega

end Sys2Proof
end

