-- ==== Sys2Proof/Laws/Memory.lean ====
section
/-! SUPPORT. What the memory operations do: reading after writing, and the canonical form they keep. -/

namespace Sys2Proof.Machine

open Sys2Proof

@[simp] theorem Memory.read_nil (a : Nat) : Memory.read [] a = none := rfl

/-- One spec of `Memory.write`: the written address reads as the new byte, every other as before. -/
theorem Memory.read_write (m : Memory) (a b : Nat) (v : Byte) :
    (Memory.write m a v).read b = if b = a then some v else m.read b := by
  induction m with
  | nil => simp [Memory.write, Memory.read]
  | cons c m ih =>
    obtain ⟨d, w⟩ := c
    simp only [Memory.write]
    split
    · simp only [Memory.read]
    · split
      · rename_i h; subst h; simp only [Memory.read]; split <;> simp_all
      · rename_i h; simp only [Memory.read, ih]; split <;> split <;> simp_all

@[simp] theorem Memory.read_write_same (m : Memory) (a : Nat) (v : Byte) : (Memory.write m a v).read a = some v := by
  simp [Memory.read_write]

theorem Memory.read_write_other {m : Memory} {a b : Nat} {v : Byte} (h : b ≠ a) :
    (Memory.write m a v).read b = m.read b := by simp [Memory.read_write, h]

/-- One spec of `Memory.writeList`: the bytes land at rising addresses, all else reads as before. -/
theorem Memory.read_writeList (vs : List Byte) (m : Memory) (a b : Nat) :
    (Memory.writeList m a vs).read b = if a ≤ b ∧ b < a + vs.length then vs[b - a]? else m.read b := by
  induction vs generalizing m a with
  | nil => simp [Memory.writeList]
  | cons v vs ih =>
    simp only [Memory.writeList, ih, Memory.read_write, List.length_cons]
    by_cases h1 : a + 1 ≤ b ∧ b < a + 1 + vs.length
    · rw [if_pos h1, if_pos (by omega), show b - a = (b - (a + 1)) + 1 by omega, List.getElem?_cons_succ]
    · rw [if_neg h1]
      by_cases h2 : b = a
      · subst h2; simp
      · rw [if_neg h2, if_neg (by omega)]

theorem Memory.read_writeList_outside {vs : List Byte} {m : Memory} {a b : Nat} (h : ¬ (a ≤ b ∧ b < a + vs.length)) :
    (Memory.writeList m a vs).read b = m.read b := by rw [Memory.read_writeList, if_neg h]

theorem Memory.read_writeList_at {vs : List Byte} {m : Memory} {a i : Nat} (h : i < vs.length) :
    (Memory.writeList m a vs).read (a + i) = some vs[i] := by
  rw [Memory.read_writeList, if_pos (by omega), Nat.add_sub_cancel_left, List.getElem?_eq_getElem h]

/-- Where a written memory can list a cell. -/
theorem Memory.mem_write {m : Memory} {a : Nat} {v : Byte} {c : Host.Cell} (h : c ∈ Memory.write m a v) :
    c = (a, v) ∨ c ∈ m := by
  induction m with
  | nil => simpa [Memory.write] using h
  | cons d m ih =>
    simp only [Memory.write] at h
    split at h
    · simpa using h
    · split at h
      · simp only [List.mem_cons] at h ⊢; tauto
      · simp only [List.mem_cons] at h ⊢
        rcases h with h | h
        · exact .inr (.inl h)
        · rcases ih h with h | h
          · exact .inl h
          · exact .inr (.inr h)

theorem Memory.wf_nil : Memory.wf [] := List.Pairwise.nil

/-- A byte write keeps the canonical form. -/
theorem Memory.wf_write {m : Memory} (h : m.wf) (a : Nat) (v : Byte) : (Memory.write m a v).wf := by
  induction m with
  | nil => simp [Memory.write, Memory.wf]
  | cons d m ih =>
    obtain ⟨b, w⟩ := d
    have hd : ∀ c ∈ m, b < c.1 := (List.pairwise_cons.mp h).1
    have hm := List.Pairwise.of_cons h
    simp only [Memory.write]
    split
    · rename_i hab
      refine List.Pairwise.cons (fun c hc => ?_) h
      rcases List.mem_cons.mp hc with rfl | hc
      · exact hab
      · exact Nat.lt_trans hab (hd c hc)
    · split
      · rename_i hab; subst hab
        exact List.Pairwise.cons (fun c hc => hd c hc) hm
      · refine List.Pairwise.cons (fun c hc => ?_) (ih hm)
        rcases Memory.mem_write hc with rfl | hc
        · show b < a; omega
        · exact hd c hc

/-- A list write keeps the canonical form. -/
theorem Memory.wf_writeList (vs : List Byte) {m : Memory} (h : m.wf) (a : Nat) : (Memory.writeList m a vs).wf := by
  induction vs generalizing m a with
  | nil => exact h
  | cons v vs ih => exact ih (Memory.wf_write h a v) (a + 1)

end Sys2Proof.Machine
end

