-- ==== Sys2Proof/Laws/State.lean ====
section
/-! SUPPORT. One lemma per field per named update of the state, true by `rfl`, tagged so that no proof unfolds a record
update; and, for the updates that choose between cases, the fields no case changes. -/

namespace Sys2Proof.Machine

open Sys2Proof

/-! ### `State.bufWrite` -/

@[simp] theorem State.bufWrite_cfg (s : State) (i : Nat) (v : Byte) : (s.bufWrite i v).cfg = s.cfg := rfl
@[simp] theorem State.bufWrite_ports (s : State) (i : Nat) (v : Byte) : (s.bufWrite i v).ports = s.ports := rfl
@[simp] theorem State.bufWrite_rtc (s : State) (i : Nat) (v : Byte) : (s.bufWrite i v).rtc = s.rtc := rfl
@[simp] theorem State.bufWrite_mem (s : State) (i : Nat) (v : Byte) :
    (s.bufWrite i v).mem =
      s.mem.write (s.bufAddr i) v := rfl
@[simp] theorem State.bufWrite_lent (s : State) (i : Nat) (v : Byte) : (s.bufWrite i v).lent = s.lent := rfl
@[simp] theorem State.bufWrite_pending (s : State) (i : Nat) (v : Byte) : (s.bufWrite i v).pending = s.pending := rfl
@[simp] theorem State.bufWrite_script (s : State) (i : Nat) (v : Byte) : (s.bufWrite i v).script = s.script := rfl
@[simp] theorem State.bufWrite_calls (s : State) (i : Nat) (v : Byte) : (s.bufWrite i v).calls = s.calls := rfl
@[simp] theorem State.bufWrite_log (s : State) (i : Nat) (v : Byte) : (s.bufWrite i v).log = s.log := rfl

/-! ### `State.bufWriteList` -/

@[simp] theorem State.bufWriteList_cfg (s : State) (i : Nat) (vs : List Byte) :
    (s.bufWriteList i vs).cfg =
      s.cfg := rfl
@[simp] theorem State.bufWriteList_ports (s : State) (i : Nat) (vs : List Byte) :
    (s.bufWriteList i vs).ports =
      s.ports := rfl
@[simp] theorem State.bufWriteList_rtc (s : State) (i : Nat) (vs : List Byte) :
    (s.bufWriteList i vs).rtc =
      s.rtc := rfl
@[simp] theorem State.bufWriteList_mem (s : State) (i : Nat) (vs : List Byte) :
    (s.bufWriteList i vs).mem =
      s.mem.writeList (s.bufAddr i) vs := rfl
@[simp] theorem State.bufWriteList_lent (s : State) (i : Nat) (vs : List Byte) :
    (s.bufWriteList i vs).lent =
      s.lent := rfl
@[simp] theorem State.bufWriteList_pending (s : State) (i : Nat) (vs : List Byte) :
    (s.bufWriteList i vs).pending =
      s.pending := rfl
@[simp] theorem State.bufWriteList_script (s : State) (i : Nat) (vs : List Byte) :
    (s.bufWriteList i vs).script =
      s.script := rfl
@[simp] theorem State.bufWriteList_calls (s : State) (i : Nat) (vs : List Byte) :
    (s.bufWriteList i vs).calls =
      s.calls := rfl
@[simp] theorem State.bufWriteList_log (s : State) (i : Nat) (vs : List Byte) :
    (s.bufWriteList i vs).log =
      s.log := rfl

/-! ### `State.setRtc` -/

@[simp] theorem State.setRtc_cfg (s : State) (p : Port) (r : Rtc) : (s.setRtc p r).cfg = s.cfg := rfl
@[simp] theorem State.setRtc_ports (s : State) (p : Port) (r : Rtc) : (s.setRtc p r).ports = s.ports := rfl
@[simp] theorem State.setRtc_rtc (s : State) (p : Port) (r : Rtc) : (s.setRtc p r).rtc = s.rtc.set p r := rfl
@[simp] theorem State.setRtc_mem (s : State) (p : Port) (r : Rtc) : (s.setRtc p r).mem = s.mem := rfl
@[simp] theorem State.setRtc_lent (s : State) (p : Port) (r : Rtc) : (s.setRtc p r).lent = s.lent := rfl
@[simp] theorem State.setRtc_pending (s : State) (p : Port) (r : Rtc) : (s.setRtc p r).pending = s.pending := rfl
@[simp] theorem State.setRtc_script (s : State) (p : Port) (r : Rtc) : (s.setRtc p r).script = s.script := rfl
@[simp] theorem State.setRtc_calls (s : State) (p : Port) (r : Rtc) : (s.setRtc p r).calls = s.calls := rfl
@[simp] theorem State.setRtc_log (s : State) (p : Port) (r : Rtc) : (s.setRtc p r).log = s.log := rfl

/-! ### `State.logEvent` -/

@[simp] theorem State.logEvent_cfg (s : State) (sev : Severity) (k : ErrorKind) :
    (s.logEvent sev k).cfg =
      s.cfg := rfl
@[simp] theorem State.logEvent_ports (s : State) (sev : Severity) (k : ErrorKind) :
    (s.logEvent sev k).ports =
      s.ports := rfl
@[simp] theorem State.logEvent_rtc (s : State) (sev : Severity) (k : ErrorKind) :
    (s.logEvent sev k).rtc =
      s.rtc := rfl
@[simp] theorem State.logEvent_mem (s : State) (sev : Severity) (k : ErrorKind) :
    (s.logEvent sev k).mem =
      s.mem := rfl
@[simp] theorem State.logEvent_lent (s : State) (sev : Severity) (k : ErrorKind) :
    (s.logEvent sev k).lent =
      s.lent := rfl
@[simp] theorem State.logEvent_pending (s : State) (sev : Severity) (k : ErrorKind) :
    (s.logEvent sev k).pending =
      s.pending := rfl
@[simp] theorem State.logEvent_script (s : State) (sev : Severity) (k : ErrorKind) :
    (s.logEvent sev k).script =
      s.script := rfl
@[simp] theorem State.logEvent_calls (s : State) (sev : Severity) (k : ErrorKind) :
    (s.logEvent sev k).calls =
      s.calls := rfl
@[simp] theorem State.logEvent_log (s : State) (sev : Severity) (k : ErrorKind) :
    (s.logEvent sev k).log =
      s.log ++ [{ severity := sev, kind := k }] := rfl

/-! ### `State.recordCall` -/

@[simp] theorem State.recordCall_cfg (s : State) (c : Call) : (s.recordCall c).cfg = s.cfg := rfl
@[simp] theorem State.recordCall_ports (s : State) (c : Call) : (s.recordCall c).ports = s.ports := rfl
@[simp] theorem State.recordCall_rtc (s : State) (c : Call) : (s.recordCall c).rtc = s.rtc := rfl
@[simp] theorem State.recordCall_mem (s : State) (c : Call) : (s.recordCall c).mem = s.mem := rfl
@[simp] theorem State.recordCall_lent (s : State) (c : Call) : (s.recordCall c).lent = s.lent := rfl
@[simp] theorem State.recordCall_pending (s : State) (c : Call) : (s.recordCall c).pending = s.pending := rfl
@[simp] theorem State.recordCall_script (s : State) (c : Call) : (s.recordCall c).script = s.script := rfl
@[simp] theorem State.recordCall_calls (s : State) (c : Call) : (s.recordCall c).calls = s.calls ++ [c] := rfl
@[simp] theorem State.recordCall_log (s : State) (c : Call) : (s.recordCall c).log = s.log := rfl

/-! ### `State.tookWord` -/

@[simp] theorem State.tookWord_cfg (s : State) (p : Port) : (s.tookWord p).cfg = s.cfg := rfl
@[simp] theorem State.tookWord_ports (s : State) (p : Port) : (s.tookWord p).ports = s.ports := rfl
@[simp] theorem State.tookWord_rtc (s : State) (p : Port) : (s.tookWord p).rtc = s.rtc := rfl
@[simp] theorem State.tookWord_mem (s : State) (p : Port) : (s.tookWord p).mem = s.mem := rfl
@[simp] theorem State.tookWord_lent (s : State) (p : Port) : (s.tookWord p).lent = s.lent := rfl
@[simp] theorem State.tookWord_pending (s : State) (p : Port) : (s.tookWord p).pending = s.pending := rfl
@[simp] theorem State.tookWord_script (s : State) (p : Port) :
    (s.tookWord p).script =
      { s.script with words := s.script.words.tail } := rfl
@[simp] theorem State.tookWord_calls (s : State) (p : Port) :
    (s.tookWord p).calls =
      s.calls ++ [.inputSource p] := rfl
@[simp] theorem State.tookWord_log (s : State) (p : Port) : (s.tookWord p).log = s.log := rfl

/-! ### `State.tookTime` -/

@[simp] theorem State.tookTime_cfg (s : State) : s.tookTime.cfg = s.cfg := rfl
@[simp] theorem State.tookTime_ports (s : State) : s.tookTime.ports = s.ports := rfl
@[simp] theorem State.tookTime_rtc (s : State) : s.tookTime.rtc = s.rtc := rfl
@[simp] theorem State.tookTime_mem (s : State) : s.tookTime.mem = s.mem := rfl
@[simp] theorem State.tookTime_lent (s : State) : s.tookTime.lent = s.lent := rfl
@[simp] theorem State.tookTime_pending (s : State) : s.tookTime.pending = s.pending := rfl
@[simp] theorem State.tookTime_script (s : State) :
    s.tookTime.script =
      { s.script with times := s.script.times.tail } := rfl
@[simp] theorem State.tookTime_calls (s : State) : s.tookTime.calls = s.calls ++ [.wallClock] := rfl
@[simp] theorem State.tookTime_log (s : State) : s.tookTime.log = s.log := rfl

/-! ### `State.tookBlock` -/

@[simp] theorem State.tookBlock_cfg (s : State) (p : Port) (addr : BitVec 16) :
    (s.tookBlock p addr).cfg =
      s.cfg := rfl
@[simp] theorem State.tookBlock_ports (s : State) (p : Port) (addr : BitVec 16) :
    (s.tookBlock p addr).ports =
      s.ports := rfl
@[simp] theorem State.tookBlock_rtc (s : State) (p : Port) (addr : BitVec 16) :
    (s.tookBlock p addr).rtc =
      s.rtc := rfl
@[simp] theorem State.tookBlock_mem (s : State) (p : Port) (addr : BitVec 16) :
    (s.tookBlock p addr).mem =
      s.mem := rfl
@[simp] theorem State.tookBlock_lent (s : State) (p : Port) (addr : BitVec 16) :
    (s.tookBlock p addr).lent =
      s.lent := rfl
@[simp] theorem State.tookBlock_pending (s : State) (p : Port) (addr : BitVec 16) :
    (s.tookBlock p addr).pending =
      s.pending := rfl
@[simp] theorem State.tookBlock_script (s : State) (p : Port) (addr : BitVec 16) :
    (s.tookBlock p addr).script =
      { s.script with blocks := s.script.blocks.tail } := rfl
@[simp] theorem State.tookBlock_calls (s : State) (p : Port) (addr : BitVec 16) :
    (s.tookBlock p addr).calls =
      s.calls ++ [.readBlock p addr] := rfl
@[simp] theorem State.tookBlock_log (s : State) (p : Port) (addr : BitVec 16) :
    (s.tookBlock p addr).log =
      s.log := rfl

/-! ### `State.popEvent` -/

@[simp] theorem State.popEvent_cfg (s : State) : s.popEvent.cfg = s.cfg := rfl
@[simp] theorem State.popEvent_ports (s : State) : s.popEvent.ports = s.ports := rfl
@[simp] theorem State.popEvent_rtc (s : State) : s.popEvent.rtc = s.rtc := rfl
@[simp] theorem State.popEvent_mem (s : State) : s.popEvent.mem = s.mem := rfl
@[simp] theorem State.popEvent_lent (s : State) : s.popEvent.lent = s.lent := rfl
@[simp] theorem State.popEvent_pending (s : State) : s.popEvent.pending = s.pending.tail := rfl
@[simp] theorem State.popEvent_script (s : State) : s.popEvent.script = s.script := rfl
@[simp] theorem State.popEvent_calls (s : State) : s.popEvent.calls = s.calls := rfl
@[simp] theorem State.popEvent_log (s : State) : s.popEvent.log = s.log := rfl

/-! ### `State.lend` -/

@[simp] theorem State.lend_cfg (s : State) (r : BufferRef) : (s.lend r).cfg = s.cfg := rfl
@[simp] theorem State.lend_ports (s : State) (r : BufferRef) : (s.lend r).ports = s.ports := rfl
@[simp] theorem State.lend_rtc (s : State) (r : BufferRef) : (s.lend r).rtc = s.rtc := rfl
@[simp] theorem State.lend_mem (s : State) (r : BufferRef) : (s.lend r).mem = s.mem := rfl
@[simp] theorem State.lend_lent (s : State) (r : BufferRef) : (s.lend r).lent = r := rfl
@[simp] theorem State.lend_pending (s : State) (r : BufferRef) : (s.lend r).pending = s.pending := rfl
@[simp] theorem State.lend_script (s : State) (r : BufferRef) : (s.lend r).script = s.script := rfl
@[simp] theorem State.lend_calls (s : State) (r : BufferRef) : (s.lend r).calls = s.calls := rfl
@[simp] theorem State.lend_log (s : State) (r : BufferRef) : (s.lend r).log = s.log := rfl

/-! ### `State.hostStore` -/

@[simp] theorem State.hostStore_cfg (s : State) (a : Nat) (bytes : List Byte) :
    (s.hostStore a bytes).cfg =
      s.cfg := rfl
@[simp] theorem State.hostStore_ports (s : State) (a : Nat) (bytes : List Byte) :
    (s.hostStore a bytes).ports =
      s.ports := rfl
@[simp] theorem State.hostStore_rtc (s : State) (a : Nat) (bytes : List Byte) :
    (s.hostStore a bytes).rtc =
      s.rtc := rfl
@[simp] theorem State.hostStore_mem (s : State) (a : Nat) (bytes : List Byte) :
    (s.hostStore a bytes).mem =
      s.mem.writeList a bytes := rfl
@[simp] theorem State.hostStore_lent (s : State) (a : Nat) (bytes : List Byte) :
    (s.hostStore a bytes).lent =
      s.lent := rfl
@[simp] theorem State.hostStore_pending (s : State) (a : Nat) (bytes : List Byte) :
    (s.hostStore a bytes).pending =
      s.pending := rfl
@[simp] theorem State.hostStore_script (s : State) (a : Nat) (bytes : List Byte) :
    (s.hostStore a bytes).script =
      s.script := rfl
@[simp] theorem State.hostStore_calls (s : State) (a : Nat) (bytes : List Byte) :
    (s.hostStore a bytes).calls =
      s.calls := rfl
@[simp] theorem State.hostStore_log (s : State) (a : Nat) (bytes : List Byte) :
    (s.hostStore a bytes).log =
      s.log := rfl

/-! ### `State.powerOn` -/

@[simp] theorem State.powerOn_cfg (s : State) : s.powerOn.cfg = s.cfg := rfl
@[simp] theorem State.powerOn_ports (s : State) : s.powerOn.ports = s.ports := rfl
@[simp] theorem State.powerOn_rtc (s : State) : s.powerOn.rtc = Vector.zipWith powerOnRtc s.ports s.rtc := rfl
@[simp] theorem State.powerOn_mem (s : State) : s.powerOn.mem = s.mem := rfl
@[simp] theorem State.powerOn_lent (s : State) : s.powerOn.lent = s.lent := rfl
@[simp] theorem State.powerOn_pending (s : State) : s.powerOn.pending = s.pending := rfl
@[simp] theorem State.powerOn_script (s : State) : s.powerOn.script = s.script := rfl
@[simp] theorem State.powerOn_calls (s : State) : s.powerOn.calls = s.calls := rfl
@[simp] theorem State.powerOn_log (s : State) : s.powerOn.log = s.log := rfl

/-! ### `State.setErrorFlag` -/

@[simp] theorem State.setErrorFlag_cfg (s : State) : s.setErrorFlag.cfg = s.cfg := rfl
@[simp] theorem State.setErrorFlag_ports (s : State) : s.setErrorFlag.ports = s.ports := rfl
@[simp] theorem State.setErrorFlag_rtc (s : State) : s.setErrorFlag.rtc = s.rtc := rfl
@[simp] theorem State.setErrorFlag_mem (s : State) :
    s.setErrorFlag.mem =
      s.mem.write (s.bufAddr offFlag) (withErrorFlag (s.bufRead offFlag)) := rfl
@[simp] theorem State.setErrorFlag_lent (s : State) : s.setErrorFlag.lent = s.lent := rfl
@[simp] theorem State.setErrorFlag_pending (s : State) : s.setErrorFlag.pending = s.pending := rfl
@[simp] theorem State.setErrorFlag_script (s : State) : s.setErrorFlag.script = s.script := rfl
@[simp] theorem State.setErrorFlag_calls (s : State) : s.setErrorFlag.calls = s.calls := rfl
@[simp] theorem State.setErrorFlag_log (s : State) : s.setErrorFlag.log = s.log := rfl

/-! ### `State.writeTypeCode` -/

@[simp] theorem State.writeTypeCode_cfg (s : State) (v : BitVec 16) : (s.writeTypeCode v).cfg = s.cfg := rfl
@[simp] theorem State.writeTypeCode_ports (s : State) (v : BitVec 16) : (s.writeTypeCode v).ports = s.ports := rfl
@[simp] theorem State.writeTypeCode_rtc (s : State) (v : BitVec 16) : (s.writeTypeCode v).rtc = s.rtc := rfl
@[simp] theorem State.writeTypeCode_mem (s : State) (v : BitVec 16) :
    (s.writeTypeCode v).mem =
      (s.mem.write (s.bufAddr s.cfg.offsets.typeLo) (loByte v)).write (s.bufAddr s.cfg.offsets.typeHi) (hiByte v) := rfl
@[simp] theorem State.writeTypeCode_lent (s : State) (v : BitVec 16) : (s.writeTypeCode v).lent = s.lent := rfl
@[simp] theorem State.writeTypeCode_pending (s : State) (v : BitVec 16) :
    (s.writeTypeCode v).pending =
      s.pending := rfl
@[simp] theorem State.writeTypeCode_script (s : State) (v : BitVec 16) : (s.writeTypeCode v).script = s.script := rfl
@[simp] theorem State.writeTypeCode_calls (s : State) (v : BitVec 16) : (s.writeTypeCode v).calls = s.calls := rfl
@[simp] theorem State.writeTypeCode_log (s : State) (v : BitVec 16) : (s.writeTypeCode v).log = s.log := rfl

/-! ### `State.writeRtcOk` -/

@[simp] theorem State.writeRtcOk_cfg (s : State) : s.writeRtcOk.cfg = s.cfg := rfl
@[simp] theorem State.writeRtcOk_ports (s : State) : s.writeRtcOk.ports = s.ports := rfl
@[simp] theorem State.writeRtcOk_rtc (s : State) : s.writeRtcOk.rtc = s.rtc := rfl
@[simp] theorem State.writeRtcOk_mem (s : State) :
    s.writeRtcOk.mem =
      s.mem.write (s.bufAddr s.cfg.offsets.rtcStatus) s.cfg.rtcStatusOk := rfl
@[simp] theorem State.writeRtcOk_lent (s : State) : s.writeRtcOk.lent = s.lent := rfl
@[simp] theorem State.writeRtcOk_pending (s : State) : s.writeRtcOk.pending = s.pending := rfl
@[simp] theorem State.writeRtcOk_script (s : State) : s.writeRtcOk.script = s.script := rfl
@[simp] theorem State.writeRtcOk_calls (s : State) : s.writeRtcOk.calls = s.calls := rfl
@[simp] theorem State.writeRtcOk_log (s : State) : s.writeRtcOk.log = s.log := rfl

/-! ### `State.appendCrc` -/

@[simp] theorem State.appendCrc_cfg (s : State) : s.appendCrc.cfg = s.cfg := rfl
@[simp] theorem State.appendCrc_ports (s : State) : s.appendCrc.ports = s.ports := rfl
@[simp] theorem State.appendCrc_rtc (s : State) : s.appendCrc.rtc = s.rtc := rfl
@[simp] theorem State.appendCrc_mem (s : State) :
    s.appendCrc.mem =
      s.mem.write (s.bufAddr s.cfg.offsets.pakCrc) (crc8 s.cfg.crcInit s.pakData) := rfl
@[simp] theorem State.appendCrc_lent (s : State) : s.appendCrc.lent = s.lent := rfl
@[simp] theorem State.appendCrc_pending (s : State) : s.appendCrc.pending = s.pending := rfl
@[simp] theorem State.appendCrc_script (s : State) : s.appendCrc.script = s.script := rfl
@[simp] theorem State.appendCrc_calls (s : State) : s.appendCrc.calls = s.calls := rfl
@[simp] theorem State.appendCrc_log (s : State) : s.appendCrc.log = s.log := rfl

/-! ### `State.storePakData` -/

@[simp] theorem State.storePakData_cfg (s : State) (b : Block) : (s.storePakData b).cfg = s.cfg := rfl
@[simp] theorem State.storePakData_ports (s : State) (b : Block) : (s.storePakData b).ports = s.ports := rfl
@[simp] theorem State.storePakData_rtc (s : State) (b : Block) : (s.storePakData b).rtc = s.rtc := rfl
@[simp] theorem State.storePakData_mem (s : State) (b : Block) :
    (s.storePakData b).mem =
      s.mem.writeList (s.bufAddr s.cfg.offsets.pakData) b.toList := rfl
@[simp] theorem State.storePakData_lent (s : State) (b : Block) : (s.storePakData b).lent = s.lent := rfl
@[simp] theorem State.storePakData_pending (s : State) (b : Block) : (s.storePakData b).pending = s.pending := rfl
@[simp] theorem State.storePakData_script (s : State) (b : Block) : (s.storePakData b).script = s.script := rfl
@[simp] theorem State.storePakData_calls (s : State) (b : Block) : (s.storePakData b).calls = s.calls := rfl
@[simp] theorem State.storePakData_log (s : State) (b : Block) : (s.storePakData b).log = s.log := rfl

/-! ### `State.writeStatus` -/

@[simp] theorem State.writeStatus_cfg (s : State) (p : Port) : (s.writeStatus p).cfg = s.cfg := rfl
@[simp] theorem State.writeStatus_ports (s : State) (p : Port) : (s.writeStatus p).ports = s.ports := rfl
@[simp] theorem State.writeStatus_rtc (s : State) (p : Port) : (s.writeStatus p).rtc = s.rtc := rfl
@[simp] theorem State.writeStatus_mem (s : State) (p : Port) :
    (s.writeStatus p).mem =
      (s.writeTypeCode s.cfg.controllerTypeCode).mem.write (s.bufAddr s.cfg.offsets.status)
        (pakStatusByte (s.port p).pak) := rfl
@[simp] theorem State.writeStatus_lent (s : State) (p : Port) : (s.writeStatus p).lent = s.lent := rfl
@[simp] theorem State.writeStatus_pending (s : State) (p : Port) : (s.writeStatus p).pending = s.pending := rfl
@[simp] theorem State.writeStatus_script (s : State) (p : Port) : (s.writeStatus p).script = s.script := rfl
@[simp] theorem State.writeStatus_calls (s : State) (p : Port) : (s.writeStatus p).calls = s.calls := rfl
@[simp] theorem State.writeStatus_log (s : State) (p : Port) : (s.writeStatus p).log = s.log := rfl

/-! ### `State.latchButtons` -/

@[simp] theorem State.latchButtons_cfg (s : State) (p : Port) : (s.latchButtons p).cfg = s.cfg := rfl
@[simp] theorem State.latchButtons_ports (s : State) (p : Port) : (s.latchButtons p).ports = s.ports := rfl
@[simp] theorem State.latchButtons_rtc (s : State) (p : Port) : (s.latchButtons p).rtc = s.rtc := rfl
@[simp] theorem State.latchButtons_mem (s : State) (p : Port) :
    (s.latchButtons p).mem =
      s.mem.writeList (s.bufAddr s.cfg.offsets.buttons) (wordBytes (s.nextWord p)) := rfl
@[simp] theorem State.latchButtons_lent (s : State) (p : Port) : (s.latchButtons p).lent = s.lent := rfl
@[simp] theorem State.latchButtons_pending (s : State) (p : Port) : (s.latchButtons p).pending = s.pending := rfl
@[simp] theorem State.latchButtons_script (s : State) (p : Port) :
    (s.latchButtons p).script =
      { s.script with words := s.script.words.tail } := rfl
@[simp] theorem State.latchButtons_calls (s : State) (p : Port) :
    (s.latchButtons p).calls =
      s.calls ++ [.inputSource p] := rfl
@[simp] theorem State.latchButtons_log (s : State) (p : Port) : (s.latchButtons p).log = s.log := rfl

/-! ### `State.setControl` -/

@[simp] theorem State.setControl_cfg (s : State) (p : Port) (v : BitVec 16) : (s.setControl p v).cfg = s.cfg := rfl
@[simp] theorem State.setControl_ports (s : State) (p : Port) (v : BitVec 16) :
    (s.setControl p v).ports =
      s.ports := rfl
@[simp] theorem State.setControl_rtc (s : State) (p : Port) (v : BitVec 16) :
    (s.setControl p v).rtc =
      s.rtc.set p { s.rtcAt p with control := v } := rfl
@[simp] theorem State.setControl_mem (s : State) (p : Port) (v : BitVec 16) : (s.setControl p v).mem = s.mem := rfl
@[simp] theorem State.setControl_lent (s : State) (p : Port) (v : BitVec 16) : (s.setControl p v).lent = s.lent := rfl
@[simp] theorem State.setControl_pending (s : State) (p : Port) (v : BitVec 16) :
    (s.setControl p v).pending =
      s.pending := rfl
@[simp] theorem State.setControl_script (s : State) (p : Port) (v : BitVec 16) :
    (s.setControl p v).script =
      s.script := rfl
@[simp] theorem State.setControl_calls (s : State) (p : Port) (v : BitVec 16) :
    (s.setControl p v).calls =
      s.calls := rfl
@[simp] theorem State.setControl_log (s : State) (p : Port) (v : BitVec 16) : (s.setControl p v).log = s.log := rfl

/-! ### `State.answerRtcStatus` -/

@[simp] theorem State.answerRtcStatus_cfg (s : State) : s.answerRtcStatus.cfg = s.cfg := rfl
@[simp] theorem State.answerRtcStatus_ports (s : State) : s.answerRtcStatus.ports = s.ports := rfl
@[simp] theorem State.answerRtcStatus_rtc (s : State) : s.answerRtcStatus.rtc = s.rtc := rfl
@[simp] theorem State.answerRtcStatus_mem (s : State) :
    s.answerRtcStatus.mem =
      (s.writeTypeCode s.cfg.rtcTypeCode).mem.write (s.bufAddr s.cfg.offsets.status) s.cfg.rtcStatusOk := rfl
@[simp] theorem State.answerRtcStatus_lent (s : State) : s.answerRtcStatus.lent = s.lent := rfl
@[simp] theorem State.answerRtcStatus_pending (s : State) : s.answerRtcStatus.pending = s.pending := rfl
@[simp] theorem State.answerRtcStatus_script (s : State) : s.answerRtcStatus.script = s.script := rfl
@[simp] theorem State.answerRtcStatus_calls (s : State) : s.answerRtcStatus.calls = s.calls := rfl
@[simp] theorem State.answerRtcStatus_log (s : State) : s.answerRtcStatus.log = s.log := rfl

/-! ### `State.answerControl` -/

@[simp] theorem State.answerControl_cfg (s : State) (p : Port) : (s.answerControl p).cfg = s.cfg := rfl
@[simp] theorem State.answerControl_ports (s : State) (p : Port) : (s.answerControl p).ports = s.ports := rfl
@[simp] theorem State.answerControl_rtc (s : State) (p : Port) : (s.answerControl p).rtc = s.rtc := rfl
@[simp] theorem State.answerControl_mem (s : State) (p : Port) :
    (s.answerControl p).mem =
      (s.mem.writeList (s.bufAddr s.cfg.offsets.rtcData)
        [loByte (s.rtcAt p).control, hiByte (s.rtcAt p).control]).write (s.bufAddr s.cfg.offsets.rtcStatus) s.cfg.rtcStatusOk := rfl
@[simp] theorem State.answerControl_lent (s : State) (p : Port) : (s.answerControl p).lent = s.lent := rfl
@[simp] theorem State.answerControl_pending (s : State) (p : Port) : (s.answerControl p).pending = s.pending := rfl
@[simp] theorem State.answerControl_script (s : State) (p : Port) : (s.answerControl p).script = s.script := rfl
@[simp] theorem State.answerControl_calls (s : State) (p : Port) : (s.answerControl p).calls = s.calls := rfl
@[simp] theorem State.answerControl_log (s : State) (p : Port) : (s.answerControl p).log = s.log := rfl

/-! ### `State.loadControl` -/

@[simp] theorem State.loadControl_cfg (s : State) (p : Port) : (s.loadControl p).cfg = s.cfg := rfl
@[simp] theorem State.loadControl_ports (s : State) (p : Port) : (s.loadControl p).ports = s.ports := rfl
@[simp] theorem State.loadControl_rtc (s : State) (p : Port) :
    (s.loadControl p).rtc =
      s.rtc.set p { s.rtcAt p with control := s.controlOperand } := rfl
@[simp] theorem State.loadControl_mem (s : State) (p : Port) :
    (s.loadControl p).mem =
      s.mem.write (s.bufAddr s.cfg.offsets.rtcStatus) s.cfg.rtcStatusOk := rfl
@[simp] theorem State.loadControl_lent (s : State) (p : Port) : (s.loadControl p).lent = s.lent := rfl
@[simp] theorem State.loadControl_pending (s : State) (p : Port) : (s.loadControl p).pending = s.pending := rfl
@[simp] theorem State.loadControl_script (s : State) (p : Port) : (s.loadControl p).script = s.script := rfl
@[simp] theorem State.loadControl_calls (s : State) (p : Port) : (s.loadControl p).calls = s.calls := rfl
@[simp] theorem State.loadControl_log (s : State) (p : Port) : (s.loadControl p).log = s.log := rfl

/-! ### `State.readTime` -/

@[simp] theorem State.readTime_cfg (s : State) (p : Port) : (s.readTime p).cfg = s.cfg := rfl
@[simp] theorem State.readTime_ports (s : State) (p : Port) : (s.readTime p).ports = s.ports := rfl
@[simp] theorem State.readTime_rtc (s : State) (p : Port) :
    (s.readTime p).rtc =
      s.rtc.set p (s.advancedRtc p) := rfl
@[simp] theorem State.readTime_mem (s : State) (p : Port) :
    (s.readTime p).mem =
      (s.mem.writeList (s.bufAddr s.cfg.offsets.rtcData)
        (timeBytes (s.timeFields p))).write
        (s.bufAddr s.cfg.offsets.rtcStatus) s.cfg.rtcStatusOk := rfl
@[simp] theorem State.readTime_lent (s : State) (p : Port) : (s.readTime p).lent = s.lent := rfl
@[simp] theorem State.readTime_pending (s : State) (p : Port) : (s.readTime p).pending = s.pending := rfl
@[simp] theorem State.readTime_script (s : State) (p : Port) :
    (s.readTime p).script =
      { s.script with times := s.script.times.tail } := rfl
@[simp] theorem State.readTime_calls (s : State) (p : Port) : (s.readTime p).calls = s.calls ++ [.wallClock] := rfl
@[simp] theorem State.readTime_log (s : State) (p : Port) : (s.readTime p).log = s.log := rfl

/-! ### Updates that choose between cases -/

@[simp] theorem State.raise_cfg (s : State) (k : ErrorKind) : (s.raise k).cfg = s.cfg := by
  cases k <;> rfl
@[simp] theorem State.raise_ports (s : State) (k : ErrorKind) : (s.raise k).ports = s.ports := by
  cases k <;> rfl
@[simp] theorem State.raise_rtc (s : State) (k : ErrorKind) : (s.raise k).rtc = s.rtc := by
  cases k <;> rfl
@[simp] theorem State.raise_lent (s : State) (k : ErrorKind) : (s.raise k).lent = s.lent := by
  cases k <;> rfl
@[simp] theorem State.raise_pending (s : State) (k : ErrorKind) : (s.raise k).pending = s.pending := by
  cases k <;> rfl
@[simp] theorem State.raise_script (s : State) (k : ErrorKind) : (s.raise k).script = s.script := by
  cases k <;> rfl
@[simp] theorem State.raise_calls (s : State) (k : ErrorKind) : (s.raise k).calls = s.calls := by
  cases k <;> rfl

@[simp] theorem State.answerStatus_cfg (s : State) (p : Port) : (s.answerStatus p).cfg = s.cfg := by
  simp only [State.answerStatus]; split <;> (try split) <;> simp [State.raise]
@[simp] theorem State.answerStatus_ports (s : State) (p : Port) : (s.answerStatus p).ports = s.ports := by
  simp only [State.answerStatus]; split <;> (try split) <;> simp [State.raise]
@[simp] theorem State.answerStatus_rtc (s : State) (p : Port) : (s.answerStatus p).rtc = s.rtc := by
  simp only [State.answerStatus]; split <;> (try split) <;> simp [State.raise]
@[simp] theorem State.answerStatus_lent (s : State) (p : Port) : (s.answerStatus p).lent = s.lent := by
  simp only [State.answerStatus]; split <;> (try split) <;> simp [State.raise]
@[simp] theorem State.answerStatus_pending (s : State) (p : Port) : (s.answerStatus p).pending = s.pending := by
  simp only [State.answerStatus]; split <;> (try split) <;> simp [State.raise]
@[simp] theorem State.answerStatus_script (s : State) (p : Port) : (s.answerStatus p).script = s.script := by
  simp only [State.answerStatus]; split <;> (try split) <;> simp [State.raise]
@[simp] theorem State.answerStatus_calls (s : State) (p : Port) : (s.answerStatus p).calls = s.calls := by
  simp only [State.answerStatus]; split <;> (try split) <;> simp [State.raise]
@[simp] theorem State.answerStatus_log (s : State) (p : Port) : (s.answerStatus p).log = s.log := by
  simp only [State.answerStatus]; split <;> (try split) <;> simp [State.raise]

@[simp] theorem State.readAccessory_cfg (s : State) (p : Port) : (s.readAccessory p).cfg = s.cfg := by
  simp only [State.readAccessory]; split <;> simp
@[simp] theorem State.readAccessory_ports (s : State) (p : Port) : (s.readAccessory p).ports = s.ports := by
  simp only [State.readAccessory]; split <;> simp
@[simp] theorem State.readAccessory_rtc (s : State) (p : Port) : (s.readAccessory p).rtc = s.rtc := by
  simp only [State.readAccessory]; split <;> simp
@[simp] theorem State.readAccessory_lent (s : State) (p : Port) : (s.readAccessory p).lent = s.lent := by
  simp only [State.readAccessory]; split <;> simp
@[simp] theorem State.readAccessory_pending (s : State) (p : Port) : (s.readAccessory p).pending = s.pending := by
  simp only [State.readAccessory]; split <;> simp

@[simp] theorem State.writeAccessory_cfg (s : State) (p : Port) : (s.writeAccessory p).cfg = s.cfg := by
  simp only [State.writeAccessory]; split <;> simp [State.raise]
@[simp] theorem State.writeAccessory_ports (s : State) (p : Port) : (s.writeAccessory p).ports = s.ports := by
  simp only [State.writeAccessory]; split <;> simp [State.raise]
@[simp] theorem State.writeAccessory_rtc (s : State) (p : Port) : (s.writeAccessory p).rtc = s.rtc := by
  simp only [State.writeAccessory]; split <;> simp [State.raise]
@[simp] theorem State.writeAccessory_lent (s : State) (p : Port) : (s.writeAccessory p).lent = s.lent := by
  simp only [State.writeAccessory]; split <;> simp [State.raise]
@[simp] theorem State.writeAccessory_pending (s : State) (p : Port) : (s.writeAccessory p).pending = s.pending := by
  simp only [State.writeAccessory]; split <;> simp [State.raise]
@[simp] theorem State.writeAccessory_script (s : State) (p : Port) : (s.writeAccessory p).script = s.script := by
  simp only [State.writeAccessory]; split <;> simp [State.raise]
@[simp] theorem State.writeAccessory_mem (s : State) (p : Port) : (s.writeAccessory p).mem = s.mem := by
  simp only [State.writeAccessory]; split <;> simp [State.raise]

@[simp] theorem State.rtcAbsent_cfg (s : State) : s.rtcAbsent.cfg = s.cfg := by
  simp only [State.rtcAbsent]; split <;> simp [State.raise]
@[simp] theorem State.rtcAbsent_ports (s : State) : s.rtcAbsent.ports = s.ports := by
  simp only [State.rtcAbsent]; split <;> simp [State.raise]
@[simp] theorem State.rtcAbsent_rtc (s : State) : s.rtcAbsent.rtc = s.rtc := by
  simp only [State.rtcAbsent]; split <;> simp [State.raise]
@[simp] theorem State.rtcAbsent_lent (s : State) : s.rtcAbsent.lent = s.lent := by
  simp only [State.rtcAbsent]; split <;> simp [State.raise]
@[simp] theorem State.rtcAbsent_pending (s : State) : s.rtcAbsent.pending = s.pending := by
  simp only [State.rtcAbsent]; split <;> simp [State.raise]
@[simp] theorem State.rtcAbsent_script (s : State) : s.rtcAbsent.script = s.script := by
  simp only [State.rtcAbsent]; split <;> simp [State.raise]
@[simp] theorem State.rtcAbsent_calls (s : State) : s.rtcAbsent.calls = s.calls := by
  simp only [State.rtcAbsent]; split <;> simp [State.raise]
@[simp] theorem State.rtcAbsent_log (s : State) : s.rtcAbsent.log = s.log := by
  simp only [State.rtcAbsent]; split <;> simp [State.raise]

end Sys2Proof.Machine
end

