-- ==== Sys2Proof/Laws/Ops.lean ====
section
/-! SUPPORT. One lemma per shared operation that says everything it does; later proofs cite these and do not unfold the
operations. -/

namespace Sys2Proof.Machine

open Sys2Proof

/-! ### Reading bytes -/

/-- The byte at an address depends on what the memory lists there, and on nothing else. -/
theorem State.readByte_congr {s t : State} {a : Nat} (h : t.mem.read a = s.mem.read a) :
    t.readByte a = s.readByte a := by simp [State.readByte, h]

theorem State.readByte_of_read {s : State} {a : Nat} {v : Byte} (h : s.mem.read a = some v) : s.readByte a = v := by
  simp [State.readByte, h]

theorem State.bufRead_congr {s t : State} (hl : t.lent = s.lent) {i : Nat}
    (h : t.mem.read (s.bufAddr i) = s.mem.read (s.bufAddr i)) : t.bufRead i = s.bufRead i := by
  have : t.bufAddr i = s.bufAddr i := by simp [State.bufAddr, hl]
  rw [State.bufRead, State.bufRead, this]; exact State.readByte_congr h

@[simp] theorem State.bufAddr_inj (s : State) {i j : Nat} : s.bufAddr i = s.bufAddr j ↔ i = j := by
  simp [State.bufAddr]

@[simp] theorem State.bufAddr_bufWrite (s : State) (i j : Nat) (v : Byte) : (s.bufWrite i v).bufAddr j = s.bufAddr j := rfl

@[simp] theorem State.bufAddr_bufWriteList (s : State) (i j : Nat) (vs : List Byte) :
    (s.bufWriteList i vs).bufAddr j = s.bufAddr j := rfl

/-- `buf[i] <- v`: index `i` reads as `v`, every other index as before. -/
theorem State.bufRead_bufWrite (s : State) (i j : Nat) (v : Byte) :
    (s.bufWrite i v).bufRead j = if j = i then v else s.bufRead j := by
  simp only [State.bufRead, State.readByte, State.bufAddr_bufWrite, State.bufWrite_mem, Memory.read_write,
    State.bufAddr_inj]
  split <;> rfl

/-- `buf[i ..] <- vs`: those indices read as `vs`, every other index as before. -/
theorem State.bufRead_bufWriteList (s : State) (i j : Nat) (vs : List Byte) :
    (s.bufWriteList i vs).bufRead j = if h : i ≤ j ∧ j < i + vs.length then vs[j - i]'(by omega) else s.bufRead j := by
  simp only [State.bufRead, State.readByte, State.bufAddr_bufWriteList, State.bufWriteList_mem, Memory.read_writeList]
  by_cases h : i ≤ j ∧ j < i + vs.length
  · rw [if_pos (by simp only [State.bufAddr]; omega), dif_pos h,
      show s.bufAddr j - s.bufAddr i = j - i by simp only [State.bufAddr]; omega,
      List.getElem?_eq_getElem (by omega)]
    rfl
  · rw [if_neg (by simp only [State.bufAddr]; omega), dif_neg h]

/-- A byte written to the buffer changes no address but its own. -/
theorem State.read_bufWrite (s : State) (i : Nat) (v : Byte) (a : Nat) :
    (s.bufWrite i v).mem.read a = if a = s.bufAddr i then some v else s.mem.read a := by
  simp [Memory.read_write]

/-- The block at an index is the 32 bytes read there. -/
@[simp] theorem State.bufBlock_getElem (s : State) (i k : Nat) (h : k < blockLen) :
    (s.bufBlock i)[k] = s.bufRead (i + k) := by simp [State.bufBlock]

theorem State.bufBlock_congr {s t : State} {i : Nat} (h : ∀ k, k < blockLen → t.bufRead (i + k) = s.bufRead (i + k)) :
    t.bufBlock i = s.bufBlock i := by
  ext k hk
  simp [h k hk]

/-! ### RTC registers -/

@[simp] theorem State.rtcAt_setRtc_same (s : State) (p : Port) (r : Rtc) : (s.setRtc p r).rtcAt p = r := by
  simp [State.rtcAt]

theorem State.rtcAt_setRtc_other (s : State) {p q : Port} (h : q ≠ p) (r : Rtc) :
    (s.setRtc p r).rtcAt q = s.rtcAt q := by
  have : p.val ≠ q.val := fun e => h (Fin.ext e.symm)
  simp [State.rtcAt, Vector.getElem_set_ne, this]

/-- Power-on at one port (R21). -/
theorem State.rtcAt_powerOn (s : State) (p : Port) :
    s.powerOn.rtcAt p = if (s.port p).hasRtc then Rtc.powerOn else s.rtcAt p := by
  simp [State.rtcAt, State.port, powerOnRtc]
  rfl

/-! ### The flag, the log and the errors -/

/-- Everything the delivery of an error can do: the flag, nothing, or one log event (R138). -/
theorem State.raise_cases (s : State) (k : ErrorKind) :
    s.raise k = s ∨ s.raise k = s.setErrorFlag ∨ ∃ sev, s.raise k = s.logEvent sev k := by
  cases k with
  | deviceAbsent => exact .inr (.inl rfl)
  | protocolError op => exact .inl rfl
  | unsupportedAccessory pak => exact .inr (.inr ⟨.warning, rfl⟩)
  | unimplementedFeature what => exact .inr (.inr ⟨.error, rfl⟩)
  | rtcInvalidBlock blk => exact .inr (.inr ⟨.error, rfl⟩)

/-- Setting the flag keeps bits 6:0 and sets bit 7 (R131). -/
theorem withErrorFlag_bits (b : Byte) (k : Nat) : (withErrorFlag b).getLsbD k = (b.getLsbD k || decide (k = 7)) := by
  rcases Nat.lt_or_ge k 8 with h | h
  · rw [withErrorFlag, BitVec.getLsbD_or, errMask]
    congr 1
    interval_cases k <;> decide
  · have : k ≠ 7 := by omega
    simp [this, BitVec.getLsbD_of_ge _ _ h]

@[simp] theorem errorFlagOf_withErrorFlag (b : Byte) : errorFlagOf (withErrorFlag b) = true := by
  revert b; decide

/-! ### Collaborators -/

theorem State.nextWord_script {s : State} {w : BitVec 32} {ws : List (BitVec 32)} (h : s.script.words = w :: ws)
    (p : Port) : s.nextWord p = w := by simp [State.nextWord, h]

theorem State.nextTime_script {s : State} {t : Int} {ts : List Int} (h : s.script.times = t :: ts) :
    s.nextTime = t := by simp [State.nextTime, h]

theorem State.nextBlock_script {s : State} {b : Block} {bs : List Block} (h : s.script.blocks = b :: bs)
    (p : Port) (addr : BitVec 16) : s.nextBlock p addr = b := by simp [State.nextBlock, h]

/-! ### Completing a command -/

/-- What `within` answers: the next state, exactly when the buffer is long enough (R32). -/
theorem State.within_eq_next {s t u : State} {need : Nat} :
    s.within need t = .next u ↔ need ≤ s.lent.len ∧ t = u := by
  unfold State.within
  split <;> simp_all

theorem State.within_of_le {s : State} {need : Nat} (h : need ≤ s.lent.len) (t : State) :
    s.within need t = .next t := by simp [State.within, h]

theorem State.within_of_lt {s : State} {need : Nat} (h : s.lent.len < need) (t : State) :
    s.within need t = .refused .shortBuffer := by simp [State.within, Nat.not_le.mpr h]

/-- What `withinUnless` answers: the next state, exactly when the buffer is long enough and the edge is not met. -/
theorem State.withinUnless_eq_next {s t u : State} {need : Nat} {edge : Bool} {r : Refusal} :
    s.withinUnless need edge r t = .next u ↔ need ≤ s.lent.len ∧ edge = false ∧ t = u := by
  unfold State.withinUnless
  split <;> simp_all [State.within_eq_next]

theorem State.withinUnless_of_edge {s : State} {need : Nat} (h : need ≤ s.lent.len) (r : Refusal) (t : State) :
    s.withinUnless need true r t = .refused r := by simp [State.withinUnless, h]

@[simp] theorem State.withinUnless_false (s : State) (need : Nat) (r : Refusal) (t : State) :
    s.withinUnless need false r t = s.within need t := by simp [State.withinUnless]

theorem State.withinUnless_of_lt {s : State} {need : Nat} (h : s.lent.len < need) (edge : Bool) (r : Refusal)
    (t : State) : s.withinUnless need edge r t = .refused .shortBuffer := by
  simp [State.withinUnless, State.within, Nat.not_le.mpr h]

/-- What decides whether a time is negative: the session, the RTCs and what the wall clock answers next. -/
theorem State.negativeTime_congr {s t : State} {p : Port} (hc : t.cfg = s.cfg) (hp : t.port p = s.port p)
    (hr : t.rtcAt p = s.rtcAt p) (hs : t.script = s.script) (hk : t.calls = s.calls) :
    t.negativeTime p = s.negativeTime p := by
  simp [State.negativeTime, State.timeFields, State.advancedRtc, State.nextTime, hc, hp, hr, hs, hk]

/-- When a read of the time is refused: on a port with an RTC, with a negative year (R108; I20). -/
theorem State.negativeTime_eq_true {s : State} {p : Port} :
    s.negativeTime p = true ↔ (s.port p).hasRtc = true ∧ (s.timeFields p).year < 0 := by
  simp [State.negativeTime, negativeField]

/-! ### Operands -/

/-- The low byte of a value assembled from two bytes. -/
@[simp] theorem loByte_ofBytes (hi lo : Byte) : loByte (ofBytes hi lo) = lo := by
  ext k hk
  simp only [loByte, ofBytes, BitVec.getElem_extractLsb', BitVec.getLsbD_or, BitVec.getLsbD_shiftLeft,
    BitVec.getLsbD_setWidth]
  have : k < 16 := by omega
  simp [hk, this]

/-- The high byte of a value assembled from two bytes. -/
@[simp] theorem hiByte_ofBytes (hi lo : Byte) : hiByte (ofBytes hi lo) = hi := by
  ext k hk
  simp only [hiByte, ofBytes, BitVec.getElem_extractLsb', BitVec.getLsbD_or, BitVec.getLsbD_shiftLeft,
    BitVec.getLsbD_setWidth]
  have h1 : 8 + k < 16 := by omega
  have h2 : k < 16 := by omega
  simp [h1, h2, BitVec.getLsbD_eq_getElem hk]

/-- A 16-bit value is its two bytes. -/
@[simp] theorem ofBytes_bytes (v : BitVec 16) : ofBytes (hiByte v) (loByte v) = v := by
  ext k hk
  simp only [ofBytes, hiByte, loByte, BitVec.getElem_or, BitVec.getElem_shiftLeft, BitVec.getElem_setWidth,
    BitVec.getLsbD_extractLsb', Nat.zero_add]
  by_cases h : k < 8
  · simp [h, BitVec.getLsbD_eq_getElem hk]
  · have h1 : k - 8 < 8 := by omega
    have h3 : 8 + (k - 8) = k := by omega
    simp [h, h1, h3, BitVec.getLsbD_eq_getElem hk]

end Sys2Proof.Machine
end

