-- ==== Sys2Proof/Laws/Exec.lean ====
section
/-! SUPPORT. What each meaning answers, said once: a next state exactly when the buffer is long enough (and, for a read of
the time, the calendar's fields are naturals), and which one.
Proofs about `exec` start from these and never unfold a meaning. -/

namespace Sys2Proof.Machine

open Sys2Proof

/-- An RTC command has its effect on a port that owns an RTC, and the absent case elsewhere (spec 42_rtc_commands.md
R100). -/
theorem State.onRtc_cases (s : State) (p : Port) (t : State) :
    ((s.port p).hasRtc = true ∧ s.onRtc p t = t) ∨ ((s.port p).hasRtc = false ∧ s.onRtc p t = s.rtcAbsent) := by
  cases h : (s.port p).hasRtc <;> simp [State.onRtc, h]

/-- Without an RTC: the flag alone or nothing, as the policy says (spec 42_rtc_commands.md R100). -/
theorem State.rtcAbsent_cases (s : State) :
    (s.cfg.rtcAbsentPolicy = .setErrorBit ∧ s.rtcAbsent = s.setErrorFlag) ∨
      (s.cfg.rtcAbsentPolicy = .ignore ∧ s.rtcAbsent = s) := by
  cases h : s.cfg.rtcAbsentPolicy <;> simp [State.rtcAbsent, h, State.raise]

/-- A command that completes is the end state of its meaning, in a long enough buffer. -/
theorem State.within_next {s t u : State} {i : Instr} :
    s.within (i.span s.cfg.offsets) t = .next u ↔ s.Holds i ∧ u = t := by
  rw [State.within_eq_next, eq_comm (a := t)]

theorem execStatus_next (p : Port) (s t : State) :
    execStatus p s = .next t ↔ s.Holds (.status p) ∧ t = s.answerStatus p :=
  State.within_next

theorem execReset_next (p : Port) (s t : State) :
    execReset p s = .next t ↔ s.Holds (.reset p) ∧ t = s.answerStatus p :=
  State.within_next

theorem execControllerRead_next (p : Port) (s t : State) :
    execControllerRead p s = .next t ↔ s.Holds (.controllerRead p) ∧
      t = (if s.connected p then s else s.raise .deviceAbsent) :=
  State.within_next

theorem execControllerReadExec_next (p : Port) (s t : State) :
    execControllerReadExec p s = .next t ↔ s.Holds (.controllerReadExec p) ∧
      t = (if s.connected p then s.latchButtons p else s) :=
  State.within_next

theorem execNop2_next (p : Port) (op : Byte) (s t : State) :
    execNop2 p op s = .next t ↔ s.Holds (.nop2 p op) ∧ t = s :=
  State.within_next

theorem execUnknown_next (p : Port) (op : Byte) (s t : State) :
    execUnknown p op s = .next t ↔ s.Holds (.unknown p op) ∧ t = s :=
  State.within_next

theorem execPakRead_next (p : Port) (s t : State) :
    execPakRead p s = .next t ↔ s.Holds (.pakRead p) ∧
      t = (if s.connected p then (s.readAccessory p).appendCrc else s.raise .deviceAbsent) :=
  State.within_next

theorem execPakWrite_next (p : Port) (s t : State) :
    execPakWrite p s = .next t ↔ s.Holds (.pakWrite p) ∧
      t = (if s.connected p then (s.writeAccessory p).appendCrc else s.raise .deviceAbsent) :=
  State.within_next

theorem execCrc8_next (s t : State) :
    execCrc8 s = .next t ↔ s.Holds (.crc8) ∧ t = s.appendCrc :=
  State.within_next

theorem execRtcStatus_next (p : Port) (s t : State) :
    execRtcStatus p s = .next t ↔ s.Holds (.rtcStatus p) ∧ t = s.onRtc p s.answerRtcStatus :=
  State.within_next

theorem execRtcReadB0_next (p : Port) (s t : State) :
    execRtcReadB0 p s = .next t ↔ s.Holds (.rtcReadB0 p) ∧ t = s.onRtc p (s.answerControl p) :=
  State.within_next

theorem execRtcReadB1_next (p : Port) (s t : State) :
    execRtcReadB1 p s = .next t ↔ s.Holds (.rtcReadB1 p) ∧
      t = s.onRtc p (s.raise (.unimplementedFeature .rtcReadBlock1)) :=
  State.within_next

theorem execRtcReadB2_next (p : Port) (s t : State) :
    execRtcReadB2 p s = .next t ↔
      s.Holds (.rtcReadB2 p) ∧ s.negativeTime p = false ∧ t = s.onRtc p (s.readTime p) := by
  rw [execRtcReadB2, State.withinUnless_eq_next, eq_comm (b := t)]

theorem execRtcReadBinv_next (p : Port) (blk : Byte) (s t : State) :
    execRtcReadBinv p blk s = .next t ↔ s.Holds (.rtcReadBinv p blk) ∧
      t = s.onRtc p (s.raise (.rtcInvalidBlock blk)) :=
  State.within_next

theorem execRtcWriteB0_next (p : Port) (s t : State) :
    execRtcWriteB0 p s = .next t ↔ s.Holds (.rtcWriteB0 p) ∧ t = s.onRtc p (s.loadControl p) :=
  State.within_next

theorem execRtcWriteB1_next (p : Port) (s t : State) :
    execRtcWriteB1 p s = .next t ↔ s.Holds (.rtcWriteB1 p) ∧
      t = s.onRtc p (if (s.rtcAt p).lock1 then s else s.raise (.unimplementedFeature .rtcWriteBlock1)) :=
  State.within_next

theorem execRtcWriteB2_next (p : Port) (s t : State) :
    execRtcWriteB2 p s = .next t ↔ s.Holds (.rtcWriteB2 p) ∧
      t = s.onRtc p (if (s.rtcAt p).lock2 then s else s.raise (.unimplementedFeature .rtcWriteBlock2)) :=
  State.within_next

theorem execRtcWriteBinv_next (p : Port) (blk : Byte) (s t : State) :
    execRtcWriteBinv p blk s = .next t ↔ s.Holds (.rtcWriteBinv p blk) ∧
      t = s.onRtc p (s.raise (.rtcInvalidBlock blk)) :=
  State.within_next

/-- The case split over the commands, once: what holds of every end state a command can have holds of the state `exec`
answers. Each case names the command and the conditions under which its meaning ends so. -/
theorem exec_ends {P : State → Prop} (i : Instr) (s t : State) (h : exec i s = .next t)
    (same : P s) (flag : P s.setErrorFlag) (log : ∀ sev k, P (s.logEvent sev k))
    (stat : ∀ p, i = .status p ∨ i = .reset p → P (s.writeStatus p))
    (latch : ∀ p, i = .controllerReadExec p → s.connected p = true → P (s.latchButtons p))
    (pr : ∀ p, i = .pakRead p → s.connected p = true → P (s.readAccessory p).appendCrc)
    (pw : ∀ p, i = .pakWrite p → s.connected p = true → P (s.writeAccessory p).appendCrc)
    (crc : i = .crc8 → P s.appendCrc)
    (rs : ∀ p, i = .rtcStatus p → P s.answerRtcStatus)
    (r0 : ∀ p, i = .rtcReadB0 p → P (s.answerControl p))
    (r2 : ∀ p, i = .rtcReadB2 p → (s.port p).hasRtc = true → P (s.readTime p))
    (w0 : ∀ p, i = .rtcWriteB0 p → P (s.loadControl p)) : P t := by
  have absent : P s.rtcAbsent := by
    rcases s.rtcAbsent_cases with ⟨-, h⟩ | ⟨-, h⟩ <;> rw [h] <;> assumption
  have on : ∀ p t, ((s.port p).hasRtc = true → P t) → P (s.onRtc p t) := by
    intro p t ht
    rcases s.onRtc_cases p t with ⟨h1, h⟩ | ⟨-, h⟩ <;> rw [h]
    · exact ht h1
    · exact absent
  cases i with
  | status p =>
    obtain ⟨-, rfl⟩ := (execStatus_next p s t).mp h
    simp only [State.answerStatus]
    split
    · exact same
    · split
      · exact stat p (.inl rfl)
      · exact flag
  | reset p =>
    obtain ⟨-, rfl⟩ := (execReset_next p s t).mp h
    simp only [State.answerStatus]
    split
    · exact same
    · split
      · exact stat p (.inr rfl)
      · exact flag
  | controllerRead p =>
    obtain ⟨-, rfl⟩ := (execControllerRead_next p s t).mp h
    split
    · exact same
    · exact flag
  | pakRead p =>
    obtain ⟨-, rfl⟩ := (execPakRead_next p s t).mp h
    split
    · exact pr p rfl ‹_›
    · exact flag
  | pakWrite p =>
    obtain ⟨-, rfl⟩ := (execPakWrite_next p s t).mp h
    split
    · exact pw p rfl ‹_›
    · exact flag
  | rtcStatus p =>
    obtain ⟨-, rfl⟩ := (execRtcStatus_next p s t).mp h
    exact on p _ fun _ => rs p rfl
  | rtcReadB0 p =>
    obtain ⟨-, rfl⟩ := (execRtcReadB0_next p s t).mp h
    exact on p _ fun _ => r0 p rfl
  | rtcReadB1 p =>
    obtain ⟨-, rfl⟩ := (execRtcReadB1_next p s t).mp h
    exact on p _ fun _ => log _ _
  | rtcReadB2 p =>
    obtain ⟨-, -, rfl⟩ := (execRtcReadB2_next p s t).mp h
    exact on p _ (r2 p rfl)
  | rtcReadBinv p b =>
    obtain ⟨-, rfl⟩ := (execRtcReadBinv_next p b s t).mp h
    exact on p _ fun _ => log _ _
  | rtcWriteB0 p =>
    obtain ⟨-, rfl⟩ := (execRtcWriteB0_next p s t).mp h
    exact on p _ fun _ => w0 p rfl
  | rtcWriteB1 p =>
    obtain ⟨-, rfl⟩ := (execRtcWriteB1_next p s t).mp h
    refine on p _ fun _ => ?_
    split
    · exact same
    · exact log _ _
  | rtcWriteB2 p =>
    obtain ⟨-, rfl⟩ := (execRtcWriteB2_next p s t).mp h
    refine on p _ fun _ => ?_
    split
    · exact same
    · exact log _ _
  | rtcWriteBinv p b =>
    obtain ⟨-, rfl⟩ := (execRtcWriteBinv_next p b s t).mp h
    exact on p _ fun _ => log _ _
  | unknown p op =>
    obtain ⟨-, rfl⟩ := (execUnknown_next p op s t).mp h
    exact same
  | controllerReadExec p =>
    obtain ⟨-, rfl⟩ := (execControllerReadExec_next p s t).mp h
    split
    · exact latch p rfl ‹_›
    · exact same
  | nop2 p op =>
    obtain ⟨-, rfl⟩ := (execNop2_next p op s t).mp h
    exact same
  | crc8 =>
    obtain ⟨-, rfl⟩ := (execCrc8_next s t).mp h
    exact crc rfl

/-- A command that completes had a long enough buffer. -/
theorem exec_holds (i : Instr) (s t : State) (h : exec i s = .next t) : s.Holds i := by
  cases i with
  | rtcReadB2 p => exact ((execRtcReadB2_next p s t).mp h).1
  | _ => exact (State.within_next.mp h).1

end Sys2Proof.Machine
end

