-- ==== Sys2Proof/Laws/PerInstr.lean ====
section
/-! SUPPORT. Statements made once per constructor of `Instr`. -/

namespace Sys2Proof.Laws.EncodingFillsSpan

open Sys2Proof

/-- The encoder writes exactly the bytes the command needs. -/
def Statement (i : Instr) : Prop := ∀ (c : Config) (e : Encoded), encode c i = some e → e.bytes.length = i.span c.offsets

theorem status (p : Port) : Statement (.status p) := by
  intro c e h; simp only [encode, Option.some.injEq] at h; subst h; simp

theorem reset (p : Port) : Statement (.reset p) := by
  intro c e h; simp only [encode, Option.some.injEq] at h; subst h; simp

theorem controllerRead (p : Port) : Statement (.controllerRead p) := by
  intro c e h; simp only [encode, Option.some.injEq] at h; subst h; simp

theorem pakRead (p : Port) : Statement (.pakRead p) := by
  intro c e h; simp only [encode, Option.some.injEq] at h; subst h; simp

theorem pakWrite (p : Port) : Statement (.pakWrite p) := by
  intro c e h; simp only [encode, Option.some.injEq] at h; subst h; simp

theorem rtcStatus (p : Port) : Statement (.rtcStatus p) := by
  intro c e h; simp only [encode, Option.some.injEq] at h; subst h; simp

theorem rtcReadB0 (p : Port) : Statement (.rtcReadB0 p) := by
  intro c e h; simp only [encode, Option.some.injEq] at h; subst h; simp

theorem rtcReadB1 (p : Port) : Statement (.rtcReadB1 p) := by
  intro c e h; simp only [encode, Option.some.injEq] at h; subst h; simp

theorem rtcReadB2 (p : Port) : Statement (.rtcReadB2 p) := by
  intro c e h; simp only [encode, Option.some.injEq] at h; subst h; simp

theorem rtcWriteB0 (p : Port) : Statement (.rtcWriteB0 p) := by
  intro c e h; simp only [encode, Option.some.injEq] at h; subst h; simp

theorem rtcWriteB1 (p : Port) : Statement (.rtcWriteB1 p) := by
  intro c e h; simp only [encode, Option.some.injEq] at h; subst h; simp

theorem rtcWriteB2 (p : Port) : Statement (.rtcWriteB2 p) := by
  intro c e h; simp only [encode, Option.some.injEq] at h; subst h; simp

theorem controllerReadExec (p : Port) : Statement (.controllerReadExec p) := by
  intro c e h; simp only [encode, Option.some.injEq] at h; subst h; simp

theorem rtcReadBinv (p : Port) (blk : Byte) : Statement (.rtcReadBinv p blk) := by
  intro c e h; simp only [encode, Option.some.injEq] at h; subst h; simp

theorem rtcWriteBinv (p : Port) (blk : Byte) : Statement (.rtcWriteBinv p blk) := by
  intro c e h; simp only [encode, Option.some.injEq] at h; subst h; simp

theorem unknown (p : Port) (op : Byte) : Statement (.unknown p op) := by
  intro c e h; simp only [encode, Option.some.injEq] at h; subst h; simp

theorem nop2 (p : Port) (op : Byte) : Statement (.nop2 p op) := by
  intro c e h; simp only [encode, Option.some.injEq] at h; subst h; simp

theorem crc8 : Statement .crc8 := by
  intro c e h; simp [encode] at h

end Sys2Proof.Laws.EncodingFillsSpan
end

