-- ==== Sys2Proof/Tests/Slice0.lean ====
section
/-! SUPPORT. Tests of the model's own files. Expected bytes are the vectors of spec/95_test_vectors.md, named by their id,
or are worked out by hand from the rule a comment names. Port 0 of the test machine has a controller, a memory pak and
an RTC; port 1 has nothing; port 2 a controller without a pak; port 3 a controller with an unknown accessory. -/

namespace Sys2Proof.Tests

open Sys2Proof Sys2Proof.Machine

/-! ### The test machine -/

def ports : Vector PortEntry nPorts :=
  #v[⟨true, .mem, true⟩, ⟨false, .noPak, false⟩, ⟨true, .noPak, false⟩, ⟨true, .unknown, false⟩]

def noAnswers : Script := ⟨[], [], []⟩

/-- After the launch, with a buffer lent at address 256. -/
def lent (bytes : List Byte) : State :=
  { State.launch Config.default ports with mem := Memory.writeList [] 256 bytes, lent := ⟨256, bytes.length⟩ }

/-- The same buffer, not lent yet but about to be invoked. -/
def invoking (entry : EntryPoint) (port : Nat) (bytes : List Byte) : State :=
  { lent bytes with lent := ⟨0, 0⟩, pending := [.invoke ⟨entry, port, ⟨256, bytes.length⟩⟩] }

def answering (script : Script) (s : State) : State := { s with script := script }

def withControl (v : BitVec 16) (s : State) : State := s.setControl 0 v

/-- What a step's end state shows, or nothing if it did not end in one. -/
def seen {α : Type} (f : State → α) : Result → Option α
  | .next t => some (f t)
  | .fault _ => none
  | .refused _ => none

def buffer (s : State) : List Byte := s.bufferBytes s.lent

/-- 33 bytes the host puts where an answer is expected. -/
def poison33 : List Byte := List.replicate 33 0xEE

/-- The block of V3: 00 01 … 1F. -/
def v3 : List Byte := (List.range 32).map (BitVec.ofNat 8)

def blockOf (bytes : List Byte) : Block := Vector.ofFn fun k : Fin blockLen => bytes.getD k.val 0

/-! ### What is not well formed -/

theorem test_default_wellFormed : Config.default.WellFormed := by decide
theorem test_equal_opcodes_refused :
    ¬ ({ opcodes := { pakRead := 0x00 } : Config }).WellFormed := by decide
theorem test_header_offset_refused :
    ¬ ({ offsets := { buttons := 2 } : Config }).WellFormed := by decide
theorem test_unknown_of_known_opcode_refused : ¬ (Instr.unknown 0 0x08).WellFormed Config.default := by decide
theorem test_nop2_of_controller_read_refused : ¬ (Instr.nop2 0 0x01).WellFormed Config.default := by decide
theorem test_rtcReadBinv_of_block_2_refused : ¬ (Instr.rtcReadBinv 0 2).WellFormed Config.default := by decide
theorem test_rtcWriteBinv_of_block_0_refused : ¬ (Instr.rtcWriteBinv 0 0).WellFormed Config.default := by decide

/-! ### Decoding: words written out from 30_encoding.md R53 to R58 and the opcode values of R5 -/

theorem test_decode_status : decode .default .phase1 0 [0x01, 0x03, 0b00000000] = .ok (.status 0) := rfl
theorem test_decode_controllerRead :
    decode .default .phase1 1 [0x01, 0x04, 0b00000001] = .ok (.controllerRead 1) := rfl
theorem test_decode_pakRead : decode .default .phase1 2 [0x03, 0x21, 0b00000010] = .ok (.pakRead 2) := rfl
theorem test_decode_pakWrite : decode .default .phase1 3 [0x23, 0x01, 0b00000011] = .ok (.pakWrite 3) := rfl
theorem test_decode_rtcStatus : decode .default .phase1 0 [0x01, 0x03, 0b00000110] = .ok (.rtcStatus 0) := rfl
theorem test_decode_reset : decode .default .phase1 0 [0x01, 0x03, 0b11111111] = .ok (.reset 0) := rfl
theorem test_decode_rtcReadB0 :
    decode .default .phase1 0 [0x02, 0x09, 0b00000111, 0b00000000] = .ok (.rtcReadB0 0) := rfl
theorem test_decode_rtcReadB1 :
    decode .default .phase1 0 [0x02, 0x09, 0b00000111, 0b00000001] = .ok (.rtcReadB1 0) := rfl
theorem test_decode_rtcReadB2 :
    decode .default .phase1 0 [0x02, 0x09, 0b00000111, 0b00000010] = .ok (.rtcReadB2 0) := rfl
theorem test_decode_rtcReadBinv :
    decode .default .phase1 0 [0x02, 0x09, 0b00000111, 0b00000011] = .ok (.rtcReadBinv 0 3) := rfl
theorem test_decode_rtcWriteB0 :
    decode .default .phase1 0 [0x0B, 0x01, 0b00001000, 0b00000000] = .ok (.rtcWriteB0 0) := rfl
theorem test_decode_rtcWriteB1 :
    decode .default .phase1 0 [0x0B, 0x01, 0b00001000, 0b00000001] = .ok (.rtcWriteB1 0) := rfl
theorem test_decode_rtcWriteB2 :
    decode .default .phase1 0 [0x0B, 0x01, 0b00001000, 0b00000010] = .ok (.rtcWriteB2 0) := rfl
theorem test_decode_rtcWriteBinv :
    decode .default .phase1 0 [0x0B, 0x01, 0b00001000, 0b11111111] = .ok (.rtcWriteBinv 0 0xFF) := rfl
theorem test_decode_unknown :
    decode .default .phase1 0 [0x02, 0x01, 0b00000100] = .ok (.unknown 0 0x04) := rfl
theorem test_decode_controllerReadExec :
    decode .default .phase2 0 [0x01, 0x04, 0b00000001] = .ok (.controllerReadExec 0) := rfl
theorem test_decode_nop2 : decode .default .phase2 0 [0x03, 0x21, 0b00000010] = .ok (.nop2 0 0x02) := rfl
theorem test_crc8_has_no_encoding : encode .default .crc8 = none := by decide
theorem test_decode_refuses_port_4 : decode .default .phase1 4 [0x01, 0x03, 0x00] = .error .portOutOfRange := rfl
theorem test_decode_refuses_no_opcode : decode .default .phase2 0 [0x01, 0x03] = .error .bufferTooShort := rfl
theorem test_decode_refuses_no_block : decode .default .phase1 0 [0x02, 0x09, 0x07] = .error .bufferTooShort := rfl

/-- The table's key: bits 15:8 the opcode, 7:0 the block; 16 names phase 2 and 31:24 the port (L3). -/
theorem test_table_words :
    [decodeTableWord 16 0x0703, decodeTableWord 16 0xFF12, decodeTableWord 16 0x0900,
      decodeTableWord 32 0x02010100, decodeTableWord 32 0x04000000] =
    [some (.rtcReadBinv 0 3), some (.reset 0), some (.unknown 0 9), some (.controllerReadExec 2), none] := by decide

/-! ### The checksum (section 2 of the vectors) -/

theorem test_crc8_V7_final_round : crc8 0 (blockOf (List.replicate 31 0 ++ [1])) = 0x85 := by decide +kernel
theorem test_crc8_V3 : seen (fun t => t.bufRead 37) (exec .crc8 (lent ([0, 0, 0, 0, 0] ++ v3 ++ [0xEE]))) = some 0x33 := by
  decide +kernel

/-! ### The controller path (section 3) -/

theorem test_status_T1 :
    seen buffer (step (invoking .phase1 0 [0x01, 0x03, 0x00, 0xEE, 0xEE, 0xEE])) =
      some [0x01, 0x03, 0x00, 0x05, 0x00, 0x01] := by decide
theorem test_status_T2 :
    seen buffer (step (invoking .phase1 1 [0x01, 0x03, 0x00, 0xEE, 0xEE, 0xEE])) =
      some [0x01, 0x83, 0x00, 0xEE, 0xEE, 0xEE] := by decide
theorem test_reset_T7 :
    seen buffer (step (invoking .phase1 0 [0x01, 0x03, 0xFF, 0xEE, 0xEE, 0xEE])) =
      some [0x01, 0x03, 0xFF, 0x05, 0x00, 0x01] := by decide
/-- R82 with the flag set, as T5 has it for STATUS; port 2 of T3 would answer otherwise. -/
theorem test_reset_with_flag_set :
    seen buffer (step (invoking .phase1 2 [0x01, 0x83, 0xFF, 0xEE, 0xEE, 0xEE])) =
      some [0x01, 0x83, 0xFF, 0xEE, 0xEE, 0xEE] := by decide
theorem test_controllerRead_T8 :
    seen (fun t => (buffer t, t.calls)) (step (invoking .phase1 0 [0x01, 0x04, 0x01, 0xEE, 0xEE, 0xEE, 0xEE])) =
      some ([0x01, 0x04, 0x01, 0xEE, 0xEE, 0xEE, 0xEE], []) := by decide
theorem test_controllerRead_T10 :
    seen buffer (step (invoking .phase1 1 [0x01, 0x04, 0x01, 0xEE, 0xEE, 0xEE, 0xEE])) =
      some [0x01, 0x84, 0x01, 0xEE, 0xEE, 0xEE, 0xEE] := by decide
theorem test_controllerReadExec_T9 :
    seen (fun t => (buffer t, t.calls)) (step (answering ⟨[0x12345678], [], []⟩
      (invoking .phase2 0 [0x01, 0x04, 0x01, 0xEE, 0xEE, 0xEE, 0xEE]))) =
      some ([0x01, 0x04, 0x01, 0x78, 0x56, 0x34, 0x12], [.inputSource 0]) := by decide
theorem test_controllerReadExec_T11 :
    seen (fun t => (buffer t, t.calls)) (step (invoking .phase2 1 [0x01, 0x84, 0x01, 0xEE, 0xEE, 0xEE, 0xEE])) =
      some ([0x01, 0x84, 0x01, 0xEE, 0xEE, 0xEE, 0xEE], []) := by decide
theorem test_nop2_T13 :
    seen buffer (step (invoking .phase2 0 [0x03, 0x21, 0x02, 0xEE])) = some [0x03, 0x21, 0x02, 0xEE] := by decide
theorem test_unknown_T22 :
    seen (fun t => (buffer t, t.log)) (step (invoking .phase1 0 [0x02, 0x01, 0x04, 0xEE, 0xEE, 0xEE])) =
      some ([0x02, 0x01, 0x04, 0xEE, 0xEE, 0xEE], []) := by decide
theorem test_unknown_T23 :
    seen buffer (step (invoking .phase1 1 [0x02, 0x01, 0x09, 0xEE])) = some [0x02, 0x01, 0x09, 0xEE] := by decide
/-- Vectors A2 and A3. -/
theorem test_pak_address_A2_A3 : chunkAddress 0x12 0x3F = 0x1220 ∧ chunkAddress 0xFF 0xFF = 0xFFE0 := by decide
theorem test_pakRead_T15 :
    seen (fun t => (buffer t, t.log)) (step (invoking .phase1 3 ([0x03, 0x21, 0x02, 0x00, 0x00] ++ poison33))) =
      some ([0x03, 0x21, 0x02, 0x00, 0x00] ++ List.replicate 33 0, [⟨.warning, .unsupportedAccessory .unknown⟩]) := by
  decide +kernel
theorem test_pakRead_T17 :
    seen (fun t => (buffer t, t.calls)) (step (answering ⟨[], [], [Vector.replicate blockLen 0x80]⟩
      (invoking .phase1 0 ([0x03, 0x21, 0x02, 0x80, 0x00] ++ poison33)))) =
      some ([0x03, 0x21, 0x02, 0x80, 0x00] ++ List.replicate 32 0x80 ++ [0xB8], [.readBlock 0 0x8000]) := by decide +kernel
/-- The bytes of V16. -/
def v16 : List Byte :=
  [0x54, 0x68, 0x65, 0x20, 0x71, 0x75, 0x69, 0x63, 0x6B, 0x20, 0x62, 0x72, 0x6F, 0x77, 0x6E, 0x20, 0x66, 0x6F, 0x78,
    0x20, 0x6A, 0x75, 0x6D, 0x70, 0x73, 0x20, 0x6F, 0x76, 0x65, 0x72, 0x20, 0x74]
theorem test_pakWrite_T21 :
    seen (fun t => (t.bufRead 37, t.calls)) (step (invoking .phase1 0 ([0x23, 0x01, 0x03, 0xFF, 0xFF] ++ v16 ++ [0xEE]))) =
      some (0xE3, [.writeBlock 0 0xFFE0 (blockOf v16)]) := by decide +kernel
theorem test_pakWrite_T20 :
    seen buffer (step (invoking .phase1 1 ([0x23, 0x01, 0x03, 0x00, 0x00] ++ v3 ++ [0xEE]))) =
      some ([0x23, 0x81, 0x03, 0x00, 0x00] ++ v3 ++ [0xEE]) := by decide

/-! ### The RTC (section 4) -/

/-- A 13-byte read request of block `blk`. -/
def rtcRead (blk : Byte) : List Byte := [0x02, 0x09, 0x07, blk] ++ List.replicate 9 0xEE

/-- A 13-byte write request of block `blk` with the data of Q11. -/
def rtcWrite (blk : Byte) : List Byte :=
  [0x0B, 0x01, 0x08, blk, 0x11, 0x22, 0x33, 0x44, 0x55, 0x66, 0x77, 0x88, 0xEE]

theorem test_rtcStatus_Q1 :
    seen buffer (step (invoking .phase1 0 [0x01, 0x03, 0x06, 0xEE, 0xEE, 0xEE])) =
      some [0x01, 0x03, 0x06, 0x00, 0x10, 0x00] := by decide
theorem test_rtcStatus_Q2 :
    seen buffer (step (invoking .phase1 1 [0x01, 0x03, 0x06, 0xEE, 0xEE, 0xEE])) =
      some [0x01, 0x83, 0x06, 0xEE, 0xEE, 0xEE] := by decide
theorem test_rtcReadB0_Q4 :
    seen buffer (step (withControl 0xBEEF (invoking .phase1 0 (rtcRead 0)))) =
      some [0x02, 0x09, 0x07, 0x00, 0xEF, 0xBE, 0xEE, 0xEE, 0xEE, 0xEE, 0xEE, 0xEE, 0x00] := by decide
theorem test_rtcReadB1_Q5 :
    seen (fun t => (buffer t, t.log.length)) (step (invoking .phase1 0 (rtcRead 1))) = some (rtcRead 1, 1) := by decide
theorem test_rtcReadB2_Q6 :
    seen (fun t => (buffer t, t.rtcAt 0)) (step (answering ⟨[], [1794163865], []⟩ (invoking .phase1 0 (rtcRead 2)))) =
      some ([0x02, 0x09, 0x07, 0x02, 0x05, 0x51, 0x98, 0x08, 0x00, 0x11, 0x26, 0x01, 0x00],
        ⟨0x0200, 1794163865, 1794163865⟩) := by decide
theorem test_rtcReadB2_Q7 :
    seen (fun t => (buffer t, t.rtcAt 0)) (step (answering ⟨[], [460], []⟩
      ((invoking .phase1 0 (rtcRead 2)).setRtc 0 ⟨0x0200, 1000, 400⟩))) =
      some ([0x02, 0x09, 0x07, 0x02, 0x40, 0x17, 0x80, 0x01, 0x04, 0x01, 0x70, 0x00, 0x00], ⟨0x0200, 1060, 460⟩) := by
  decide
theorem test_rtcReadBinv_Q9 :
    seen (fun t => (buffer t, t.log)) (step (invoking .phase1 0 (rtcRead 0xFF))) =
      some (rtcRead 0xFF, [⟨.error, .rtcInvalidBlock 0xFF⟩]) := by decide
theorem test_rtcReadBinv_Q16 :
    seen (fun t => (t.bufRead 1, t.log)) (step (invoking .phase1 1 (rtcRead 3))) = some (0x89, []) := by decide
theorem test_rtcWriteB0_Q10 :
    seen (fun t => (t.rtcAt 0, t.bufRead 12)) (step (invoking .phase1 0
      [0x0B, 0x01, 0x08, 0x00, 0x34, 0x12, 0x00, 0x00, 0x00, 0x00, 0x00, 0x00, 0xEE])) =
      some (⟨0x1234, 0, 0⟩, 0x00) := by decide
theorem test_rtcWriteB1_Q11 :
    seen (fun t => (buffer t, t.log.length)) (step (invoking .phase1 0 (rtcWrite 1))) = some (rtcWrite 1, 1) := by decide
theorem test_rtcWriteB1_Q12 :
    seen (fun t => (buffer t, t.log)) (step (withControl 0x0201 (invoking .phase1 0 (rtcWrite 1)))) =
      some (rtcWrite 1, []) := by decide
theorem test_rtcWriteB2_Q13 :
    seen (fun t => (t.rtcAt 0, t.log.length)) (step (withControl 0x0201 (invoking .phase1 0 (rtcWrite 2)))) =
      some (⟨0x0201, 0, 0⟩, 1) := by decide
theorem test_rtcWriteB2_Q14 :
    seen (fun t => (buffer t, t.log)) (step (withControl 0x0002 (invoking .phase1 0 (rtcWrite 2)))) =
      some (rtcWrite 2, []) := by decide
theorem test_rtcWriteBinv_Q15 :
    seen (fun t => (buffer t, t.log)) (step (invoking .phase1 0 (rtcWrite 7))) =
      some (rtcWrite 7, [⟨.error, .rtcInvalidBlock 7⟩]) := by decide
/-- Times of section 4: K2 (end of a century's last year), K5 (a leap day), K7 (past 2^32). -/
theorem test_time_bytes_K2_K5_K7 :
    [946684799, 1709210096, 4107575100].map (fun t => timeBytes (utcCalendar t)) =
      [[0x59, 0x59, 0xA3, 0x31, 0x05, 0x12, 0x99, 0x00], [0x56, 0x34, 0x92, 0x29, 0x04, 0x02, 0x24, 0x01],
        [0x00, 0x05, 0x89, 0x01, 0x01, 0x03, 0x00, 0x02]] := by decide

/-! ### Witnesses: for each obligation with hypotheses, values that meet all of them together, clause by clause -/

/-- The end state of a command that has one. -/
def endOf (s : State) : Result → State
  | .next t => t
  | .fault _ => s
  | .refused _ => s

/-- The host's next buffer for a second command: new memory at 512, nothing else changed. -/
def relent (bytes : List Byte) (t : State) : State :=
  { t with mem := t.mem.writeList 512 bytes, lent := ⟨512, bytes.length⟩ }

theorem witness_EveryEncodingDecodesBack :
    Config.default.WellFormed ∧ (Instr.rtcReadBinv 3 3).WellFormed .default ∧ (Instr.unknown 0 0xFE).WellFormed .default ∧
      (encode .default (.rtcReadBinv 3 3)).isSome ∧ (encode .default (.unknown 0 0xFE)).isSome := by decide

theorem witness_DecodedCommandsAreWellFormed :
    decode .default .phase1 3 [0x0B, 0x01, 0x08, 0x03] = .ok (.rtcWriteBinv 3 3) := rfl

/-- A buffer with byte 3, and the 3-byte buffers of a controller read and, at phase 2, of an RTC opcode. -/
theorem witness_DecodeIsFirstMatchInTable :
    let o := Config.default.opcodes
    Config.default.offsets.rtcBlock = 3 ∧ ([0x02, 0x09, 0x07, 0xFF] : List Byte)[2]? = some 0x07 ∧
      ([0x02, 0x09, 0x07, 0xFF] : List Byte)[3]? = some 0xFF ∧ ([0x01, 0x04, 0x01] : List Byte)[2]? = some 0x01 ∧
      ([0x01, 0x04, 0x01] : List Byte)[3]? = none ∧ (0x01 ≠ o.rtcRead ∧ 0x01 ≠ o.rtcWrite) ∧
      ([0x02, 0x09, 0x07] : List Byte)[2]? = some 0x07 ∧ ([0x02, 0x09, 0x07] : List Byte)[3]? = none := by decide

theorem witness_PlacedTableWordRunsNext :
    State.reset.cfg = Config.default ∧ decodeTableWord 16 0x0702 = some (.rtcReadB2 0) := by decide

/-- The last port, the shortest buffer that decodes. -/
theorem witness_StepRunsDecodedCommand :
    let s := invoking .phase1 3 [0x02, 0x01, 0x09]
    s.pending = [.invoke ⟨.phase1, 3, ⟨256, 3⟩⟩] ∧ decode s.cfg .phase1 3 (s.bufferBytes ⟨256, 3⟩) = .ok (.unknown 3 9) :=
  ⟨rfl, rfl⟩

theorem witness_EncodedCommandRunsToItsEnd :
    let e : Encoded := ⟨.phase1, 0, [0, 0, 0xFF, 0, 0, 0]⟩
    let s := invoking .phase1 0 e.bytes
    s.cfg.WellFormed ∧ (Instr.reset 0).WellFormed s.cfg ∧ encode s.cfg (.reset 0) = some e ∧
      s.TimeNatural (.reset 0) ∧ s.bufferBytes ⟨256, e.bytes.length⟩ = e.bytes ∧
      s.pending = [.invoke ⟨e.entry, e.port, ⟨256, e.bytes.length⟩⟩] := by decide

/-- The four reasons, each at its boundary: a rebinding, port 4, a STATUS buffer of 5 bytes, a buffer of 13 bytes for the
last second of 1899. -/
theorem witness_StepRefusesExactly :
    step { State.reset with pending := [.rebind 0 .empty] } = .refused .rebindInSession ∧
      step (invoking .phase1 4 [0, 0, 0, 0, 0, 0]) = .refused .portOutOfRange ∧
      step (invoking .phase1 3 [0, 0, 0, 0, 0]) = .refused .shortBuffer ∧
      step (answering ⟨[], [-2208988801], []⟩ (invoking .phase1 0 (rtcRead 2))) = .refused .negativeCalendarField :=
  ⟨rfl, rfl, rfl, rfl⟩

/-- The first second of 1900 and the one before it, at a read of the time in 38 bytes. -/
theorem witness_BuffersOf38BytesAdmitEveryCommand :
    let bytes := rtcRead 2 ++ List.replicate 25 0
    let s := answering ⟨[], [-2208988800], []⟩ (invoking .phase1 0 bytes)
    let s' := answering ⟨[], [-2208988801], []⟩ (invoking .phase1 0 bytes)
    s.DefaultOffsets ∧ s.pending = [.invoke ⟨.phase1, 0, ⟨256, 38⟩⟩] ∧ s'.DefaultOffsets ∧
      s'.pending = [.invoke ⟨.phase1, 0, ⟨256, 38⟩⟩] ∧
      (decode s.cfg .phase1 0 (s.bufferBytes ⟨256, 38⟩)).toOption = some (.rtcReadB2 0) ∧
      s.negativeTime 0 = false ∧ s'.negativeTime 0 = true := by decide

theorem witness_IdleAndHostStores :
    State.reset.pending = [] ∧
      ({ State.reset with pending := [.store 7 [0x12, 0x34]] } : State).pending = [.store 7 [0x12, 0x34]] := by decide

theorem witness_PowerOnResetsOwnedRtcsOnly :
    ({ withControl 0x1234 (lent []) with pending := [.powerOn] } : State).pending = [.powerOn] := by decide

theorem witness_EveryStepKeepsTheRunInvariant :
    let s := answering ⟨[], [1794163865], []⟩ (invoking .phase1 0 (rtcRead 2))
    s.Invariant ∧ ∃ t, step s = .next t ∧ t.mem ≠ s.mem ∧ t.rtc ≠ s.rtc :=
  ⟨⟨by decide, by decide, by unfold State.ClocksSampled; decide⟩, _, rfl, by decide, by decide⟩

theorem witness_LaunchMeetsTheRunInvariant : Config.default.WellFormed := by decide

theorem witness_EveryStepKeepsTheSession :
    ∃ t, step (invoking .phase1 0 [0x01, 0x03, 0x00, 0xEE, 0xEE, 0xEE]) = .next t := ⟨_, rfl⟩

/-- A command that writes at both edges of what it may: byte 1, and byte 37 of a 38-byte buffer. -/
theorem witness_CommandsStayInTheirBuffer :
    (lent ([0x03, 0x21, 0x02, 0x00, 0x00] ++ poison33)).cfg.WellFormed ∧
      (∃ t, exec (.pakRead 1) (lent ([0x03, 0x21, 0x02, 0x00, 0x00] ++ poison33)) = .next t) ∧
      ∃ t, exec (.pakRead 2) (lent ([0x03, 0x21, 0x02, 0x00, 0x00] ++ poison33)) = .next t :=
  ⟨by decide, ⟨_, rfl⟩, _, rfl⟩

theorem witness_CommandsTouchOnlyTheirPort :
    (∃ t, exec (.rtcWriteB0 0) (lent (rtcWrite 0)) = .next t) ∧ (Instr.rtcWriteB0 0).port? ≠ some 1 :=
  ⟨⟨_, rfl⟩, by decide⟩

theorem witness_OtherPortsDoNotMatter :
    let s := lent (rtcWrite 0)
    let s' := { s with ports := s.ports.set 1 ⟨true, .transfer, true⟩, rtc := s.rtc.set 1 ⟨1, 2, 3⟩ }
    (Instr.rtcWriteB0 0).port? = some 0 ∧ AgreeAt 0 s s' ∧ s ≠ s' ∧ ∃ t, exec (.rtcWriteB0 0) s = .next t :=
  ⟨rfl, ⟨rfl, rfl, rfl, rfl, rfl, rfl, rfl, rfl, rfl⟩, by decide, _, rfl⟩

/-- Both sides of the length bound, and of the first second of 1900. -/
theorem witness_EveryCommandCompletesInALongEnoughBuffer :
    let s := answering ⟨[], [-2208988800], []⟩ (lent (List.replicate 13 0))
    let s' := answering ⟨[], [-2208988801], []⟩ (lent (List.replicate 13 0))
    s.Holds (.rtcReadB2 0) ∧ s.TimeNatural (.rtcReadB2 0) ∧ s'.Holds (.rtcReadB2 0) ∧
      ¬ s'.TimeNatural (.rtcReadB2 0) ∧ ¬ (lent (List.replicate 12 0)).Holds (.rtcReadB2 0) := by decide

theorem witness_AtMostOneErrorAndOneCall :
    (lent (rtcRead 3)).cfg.WellFormed ∧ ∃ t, exec (.rtcReadBinv 0 3) (lent (rtcRead 3)) = .next t := ⟨by decide, _, rfl⟩

theorem witness_CollaboratorsAreCalledByTheseCommandsOnly :
    let s := lent ([0x23, 0x01, 0x03, 0xFF, 0xFF] ++ v16 ++ [0xEE])
    ∃ t, exec (.pakWrite 0) s = .next t ∧ t.calls = s.calls ++ [.writeBlock 0 0xFFE0 s.pakData] := ⟨_, rfl, by decide +kernel⟩

/-- Under offsets that are not the defaults: the answers of RTC_STATUS stand at 9, 3 and 7. -/
theorem witness_PresetFlagMattersToStatusAndResetOnly :
    let s₀ := lent [0x01, 0x03, 0x06, 0xEE, 0xEE, 0xEE, 0xEE, 0xEE, 0xEE, 0xEE]
    let s := { s₀ with cfg := { s₀.cfg with offsets := { typeLo := 9, typeHi := 3, status := 7 } } }
    s.cfg.WellFormed ∧ (Instr.rtcStatus 0).readsFlag = false ∧ ∃ t, exec (.rtcStatus 0) s = .next t :=
  ⟨by decide, by decide, _, rfl⟩

theorem witness_PhaseTwoDecodesTheSameOpcode :
    (lent [0x01, 0x04, 0x01]).cfg.WellFormed ∧ ∃ t, exec (.controllerRead 1) (lent [0x01, 0x04, 0x01]) = .next t :=
  ⟨by decide, _, rfl⟩

/-- The flag set, then clear on a disconnected and on a connected port, in the shortest buffer, for both commands. -/
theorem witness_StatusAndResetAnswer :
    let set := lent [0x01, 0x80, 0x00, 0xEE, 0xEE, 0xEE]
    let clear := lent [0x01, 0x7F, 0x00, 0xEE, 0xEE, 0xEE]
    set.DefaultOffsets ∧ clear.DefaultOffsets ∧ set.Holds (.status 0) ∧ clear.Holds (.reset 1) ∧
      set.bufRead 1 &&& 0x80 ≠ 0 ∧ clear.bufRead 1 &&& 0x80 = 0 ∧ clear.connected 1 = false ∧
      clear.connected 3 = true := by decide

theorem witness_ResetCommandResetsNothing :
    ∃ t, exec (.reset 0) (lent [0x01, 0x03, 0xFF, 0xEE, 0xEE, 0xEE]) = .next t := ⟨_, rfl⟩

theorem witness_ControllerReadSetupMarksOnlyTheFlag :
    let s := lent [0x01, 0x04, 0x01]
    s.Holds (.controllerRead 0) ∧ s.connected 0 = true ∧ s.Holds (.controllerRead 1) ∧ s.connected 1 = false := by decide

theorem witness_ControllerReadExecLatchesTheWord :
    let s := lent [0x01, 0x04, 0x01, 0xEE, 0xEE, 0xEE, 0xEE]
    s.DefaultOffsets ∧ s.Holds (.controllerReadExec 1) ∧ s.connected 1 = false ∧ s.connected 2 = true := by decide

theorem witness_UnknownOpcodesAreIgnored :
    let s := lent [0x02, 0x01, 0x09]
    ([0x02, 0x01, 0x09] : List Byte)[2]? = some 0x09 ∧ 0x09 ∉ s.cfg.opcodes.all ∧ s.Holds (.unknown 0 0x09) := by decide

theorem witness_PhaseTwoOfOtherOpcodesDoesNothing :
    let s := lent [0x02, 0x01, 0x09]
    ([0x02, 0x01, 0x02] : List Byte)[2]? = some 0x02 ∧ 0x02 ≠ s.cfg.opcodes.controllerRead ∧ s.Holds (.nop2 0 0x02) := by
  decide

theorem witness_PakAddressIsChunkAligned : (0xFFE0 : BitVec 16) &&& 0x001F = 0 := by decide

/-- A pak buffer of the shortest length. -/
def pakBuffer : List Byte := [0x23, 0x01, 0x03, 0xFF, 0xFF] ++ v16 ++ [0xEE]

theorem witness_PakReadDeliversTheBackendsBlock :
    let s := lent pakBuffer
    s.DefaultOffsets ∧ s.Holds (.pakRead 0) ∧ s.connected 0 = true ∧ pakPresent (s.port 0).pak = true := by decide

/-- No pak, and an unknown one. -/
theorem witness_PakReadWithoutABackendZeroFills :
    let s := lent pakBuffer
    s.DefaultOffsets ∧ s.Holds (.pakRead 2) ∧ s.connected 2 = true ∧ pakPresent (s.port 2).pak = false ∧
      s.connected 3 = true ∧ pakPresent (s.port 3).pak = false ∧ (s.port 3).pak = .unknown := by decide

/-- A pak with a backend, no pak, and an unknown one. -/
theorem witness_PakWriteHandsOnTheHostsBlock :
    let s := lent pakBuffer
    s.DefaultOffsets ∧ s.Holds (.pakWrite 0) ∧ ∀ p : Port, p ≠ 1 → s.connected p = true := by decide

theorem witness_PakCommandsOnADisconnectedPort :
    let s := lent pakBuffer
    s.Holds (.pakRead 1) ∧ s.Holds (.pakWrite 1) ∧ s.connected 1 = false := by decide

theorem witness_PakRoundTrip :
    let s := answering ⟨[], [], [blockOf v16]⟩ (lent pakBuffer)
    let t := endOf s (exec (.pakWrite 0) s)
    let u := relent ([0x03, 0x21, 0x02, 0xFF, 0xE0] ++ poison33) t
    s.DefaultOffsets ∧ s.connected 0 = true ∧ pakPresent (s.port 0).pak = true ∧ exec (.pakWrite 0) s = .next t ∧
      u = { t with mem := u.mem, lent := u.lent } ∧ u.Holds (.pakRead 0) ∧ u.pakAddress = s.pakAddress ∧
      u.nextBlock 0 u.pakAddress = s.pakData :=
  ⟨by decide, by decide, by decide, rfl, rfl, by decide +kernel, by decide +kernel, by decide +kernel⟩

theorem witness_ChecksumEngineStoresOneByte : (lent pakBuffer).DefaultOffsets ∧ (lent pakBuffer).Holds .crc8 := by decide

/-- Both policies. -/
theorem witness_RtcCommandsOnAPortWithoutRtc :
    let s := lent (rtcRead 3)
    let s' := { s with cfg := { s.cfg with rtcAbsentPolicy := .ignore } }
    (Instr.rtcReadBinv 1 3).isRtc = true ∧ (Instr.rtcReadBinv 1 3).port? = some 1 ∧ s.Holds (.rtcReadBinv 1 3) ∧
      (s.port 1).hasRtc = false ∧ s.cfg.rtcAbsentPolicy = .setErrorBit ∧ s'.Holds (.rtcReadBinv 1 3) ∧
      (s'.port 1).hasRtc = false ∧ s'.cfg.rtcAbsentPolicy = .ignore := by decide

theorem witness_RtcStatusAnswers :
    let s := lent [0x01, 0x03, 0x06, 0xEE, 0xEE, 0xEE]
    s.DefaultOffsets ∧ s.Holds (.rtcStatus 0) ∧ (s.port 0).hasRtc = true := by decide

theorem witness_RtcReadOfBlock0ShowsControl :
    let s := lent (rtcRead 0)
    s.DefaultOffsets ∧ s.Holds (.rtcReadB0 0) ∧ (s.port 0).hasRtc = true := by decide

theorem witness_RtcWriteOfBlock0SetsControl :
    let s := lent (rtcWrite 0)
    s.DefaultOffsets ∧ s.Holds (.rtcWriteB0 0) ∧ (s.port 0).hasRtc = true := by decide

theorem witness_RtcReadOfBlock1OnlyLogs :
    (lent (rtcRead 1)).Holds (.rtcReadB1 0) ∧ ((lent (rtcRead 1)).port 0).hasRtc = true := by decide

/-- The lowest and the highest invalid index. -/
theorem witness_InvalidRtcBlocksAreOnlyLogged :
    (lent (rtcRead 3)).Holds (.rtcReadBinv 0 3) ∧ (lent (rtcWrite 255)).Holds (.rtcWriteBinv 0 255) ∧
      ((lent (rtcRead 3)).port 0).hasRtc = true ∧ ((lent (rtcWrite 255)).port 0).hasRtc = true := by decide

theorem witness_RtcReadOfBlock2TellsTheTime :
    let s := answering ⟨[], [-2208988800], []⟩ (lent (rtcRead 2))
    s.DefaultOffsets ∧ s.Holds (.rtcReadB2 0) ∧ (s.port 0).hasRtc = true ∧
      0 ≤ (calendar s.cfg.calendar ((s.rtcAt 0).clock + (s.nextTime - (s.rtcAt 0).last))).year := by decide

theorem witness_RtcReadOfBlock2RefusesNegativeYears :
    let s := answering ⟨[], [-2208988801], []⟩ (lent (rtcRead 2))
    s.Holds (.rtcReadB2 0) ∧ (s.port 0).hasRtc = true ∧
      (calendar s.cfg.calendar ((s.rtcAt 0).clock + (s.nextTime - (s.rtcAt 0).last))).year < 0 := by decide

theorem witness_ControlWrittenReadsBack :
    let s := lent (rtcWrite 0)
    let t := endOf s (exec (.rtcWriteB0 0) s)
    let u := relent (rtcRead 0) t
    s.DefaultOffsets ∧ (s.port 0).hasRtc = true ∧ exec (.rtcWriteB0 0) s = .next t ∧
      u = { t with mem := u.mem, lent := u.lent } ∧ u.Holds (.rtcReadB0 0) :=
  ⟨by decide, by decide, rfl, rfl, by decide⟩

/-- Each lock bit set and clear. -/
theorem witness_RtcWritesOfBlocks1And2 :
    let s := withControl 0x0001 (lent (rtcWrite 1))
    let s' := withControl 0xFFFE (lent (rtcWrite 2))
    (s.port 0).hasRtc = true ∧ s.Holds (.rtcWriteB1 0) ∧ s.Holds (.rtcWriteB2 0) ∧ (s'.port 0).hasRtc = true ∧
      s'.Holds (.rtcWriteB1 0) ∧ s'.Holds (.rtcWriteB2 0) ∧ (s.rtcAt 0).control.getLsbD 0 = true ∧
      (s.rtcAt 0).control.getLsbD 1 = false ∧ (s'.rtcAt 0).control.getLsbD 0 = false ∧
      (s'.rtcAt 0).control.getLsbD 1 = true := by decide

/-- A control write that sets both lock bits, then a write of each block. -/
theorem witness_LockBitsProtectTheirBlock :
    let s := lent [0x0B, 0x01, 0x08, 0x00, 0x03, 0x00, 0x00, 0x00, 0x00, 0x00, 0x00, 0x00, 0xEE]
    let t := endOf s (exec (.rtcWriteB0 0) s)
    let u := relent (rtcWrite 1) t
    s.DefaultOffsets ∧ (s.port 0).hasRtc = true ∧ exec (.rtcWriteB0 0) s = .next t ∧
      u = { t with mem := u.mem, lent := u.lent } ∧ (s.bufRead 4).getLsbD 0 = true ∧ u.Holds (.rtcWriteB1 0) ∧
      (s.bufRead 4).getLsbD 1 = true ∧ u.Holds (.rtcWriteB2 0) :=
  ⟨by decide, by decide, rfl, rfl, by decide, by decide, by decide, by decide⟩

/-- The wall clock stepping back below the last sample. -/
theorem witness_ClockFollowsTheWallClock :
    let s := answering ⟨[], [-5], []⟩ ((lent (rtcRead 2)).setRtc 0 ⟨0x0200, 400, 400⟩)
    (s.port 0).hasRtc = true ∧ (s.rtcAt 0).clock = (s.rtcAt 0).last ∧ ∃ t, exec (.rtcReadB2 0) s = .next t :=
  ⟨by decide, by decide, _, rfl⟩

theorem witness_BcdPacksTwoDecimalDigits : 99 < 100 := by decide

end Sys2Proof.Tests
end

/-! PROOFS. Encoding: the decoder is the opcode table (30_encoding.md R52), and the bits of the pak address (R59). -/

namespace Sys2Proof

/-! ### The first match in the table, row by row -/

/-- A row of mask 0xFF00 compares the opcode byte alone. -/
theorem firstMatch_opcodeRow (p : Port) (op blk x : Byte) (build : Port → Byte → Byte → Instr) (rs : List Row) :
    firstMatch p op blk (⟨0xFF00#16, decodeKey x 0, build⟩ :: rs) =
      if op = x then some (build p op blk) else firstMatch p op blk rs := by
  simp only [firstMatch, opcodeRow_matches]

/-- A row of mask 0xFFFF compares the opcode byte and the block byte. -/
theorem firstMatch_blockRow (p : Port) (op blk x y : Byte) (build : Port → Byte → Byte → Instr) (rs : List Row) :
    firstMatch p op blk (⟨0xFFFF#16, decodeKey x y, build⟩ :: rs) =
      if op = x ∧ blk = y then some (build p op blk) else firstMatch p op blk rs := by
  simp only [firstMatch, blockRow_matches]

/-- A catch-all row ends the search. -/
theorem firstMatch_catchAll (p : Port) (op blk : Byte) (build : Port → Byte → Byte → Instr) (rs : List Row) :
    firstMatch p op blk (⟨0x0000#16, 0x0000#16, build⟩ :: rs) = some (build p op blk) :=
  if_pos (catchAll_matches op blk)

/-- The four rows of an opcode with a block index: three fixed indices, then the row for every other one. -/
theorem firstMatch_blockRows (p : Port) (op blk x : Byte) (b0 b1 b2 binv : Port → Byte → Byte → Instr)
    (rs : List Row) :
    firstMatch p op blk (⟨0xFFFF#16, decodeKey x 0, b0⟩ :: ⟨0xFFFF#16, decodeKey x 1, b1⟩ ::
        ⟨0xFFFF#16, decodeKey x 2, b2⟩ :: ⟨0xFF00#16, decodeKey x 0, binv⟩ :: rs) =
      if op = x then
        some (if blk = 0 then b0 p op blk else if blk = 1 then b1 p op blk
          else if blk = 2 then b2 p op blk else binv p op blk)
      else firstMatch p op blk rs := by
  simp only [firstMatch_blockRow, firstMatch_opcodeRow]
  by_cases hop : op = x
  · simp only [hop, true_and, if_true, apply_ite some]
  · simp only [hop, false_and, if_false]

/-! ### The two dispatches -/

/-- One comparison `q` in front of a search and of a dispatch that name one command keeps them naming one command. -/
theorem sameCommand_ite {q : Prop} [Decidable q] {found : Option Instr} {answer : Except DecodeError Instr} (j : Instr)
    (hrest : ∃ i, found = some i ∧ answer = .ok i) :
    ∃ i, (if q then some j else found) = some i ∧ (if q then .ok j else answer) = .ok i := by
  by_cases hq : q
  · exact ⟨j, if_pos hq, if_pos hq⟩
  · simpa only [if_neg hq] using hrest

/-- With a block byte at hand, the first match of the phase 1 rows is what `selectPhase1` answers: both compare the
opcode with the same eight values in the same order, and end in the same catch-all. -/
theorem firstMatch_phase1 (o : Opcodes) (p : Port) (op blk : Byte) :
    ∃ i, firstMatch p op blk (tableRows o .phase1) = some i ∧ selectPhase1 o p op (some blk) = .ok i := by
  simp only [tableRows, firstMatch_blockRows, firstMatch_opcodeRow, firstMatch_catchAll, selectPhase1,
    rtcReadVariant, rtcWriteVariant]
  iterate 8 refine sameCommand_ite _ ?_
  exact ⟨.unknown p op, rfl, rfl⟩

theorem firstMatch_phase2 (o : Opcodes) (p : Port) (op blk : Byte) :
    firstMatch p op blk (tableRows o .phase2) = some (selectPhase2 o p op) := by
  simp only [tableRows, firstMatch_opcodeRow, firstMatch_catchAll, selectPhase2, apply_ite some]

/-- Only the two RTC opcodes with a block index look at the block byte (R53). -/
theorem selectPhase1_block_irrelevant {o : Opcodes} {op : Byte} (hread : op ≠ o.rtcRead) (hwrite : op ≠ o.rtcWrite)
    (p : Port) (b b' : Option Byte) : selectPhase1 o p op b = selectPhase1 o p op b' := by
  simp only [selectPhase1, hread, hwrite, if_false]

theorem decode_phase1 {c : Config} {bytes : List Byte} {op : Byte} (hop : bytes[offOpcode]? = some op) (p : Port) :
    decode c .phase1 p bytes = selectPhase1 c.opcodes p op bytes[c.offsets.rtcBlock]? := by
  simp only [decode, p.isLt, dif_pos, hop]

theorem decode_phase2 {c : Config} {bytes : List Byte} {op : Byte} (hop : bytes[offOpcode]? = some op) (p : Port) :
    decode c .phase2 p bytes = .ok (selectPhase2 c.opcodes p op) := by
  simp only [decode, p.isLt, dif_pos, hop]

/-- Settles O4: each dispatch is the first match of its rows, and a missing byte 3 is one that nothing looks at. -/
theorem decodeIsFirstMatchInTable : Obligations.DecodeIsFirstMatchInTable := by
  intro c entry p bytes op blk hblock hop hbyte3
  cases entry with
  | phase1 =>
    obtain ⟨i, hfirst, hselect⟩ := firstMatch_phase1 c.opcodes p op blk
    refine ⟨i, hfirst, ?_⟩
    rw [decode_phase1 hop, hblock, ← hselect]
    rcases hbyte3 with hsome | ⟨-, hphase | ⟨hread, hwrite⟩⟩
    · rw [hsome]
    · cases hphase
    · exact selectPhase1_block_irrelevant hread hwrite p _ _
  | phase2 => exact ⟨_, firstMatch_phase2 c.opcodes p op blk, decode_phase2 hop p⟩

end Sys2Proof

namespace Sys2Proof.Machine

/-! ### The bits of the pak address -/

theorem ofBytes_getLsbD (hi lo : Byte) (k : Nat) :
    (ofBytes hi lo).getLsbD k = if k < 8 then lo.getLsbD k else hi.getLsbD (k - 8) := by
  rcases Nat.lt_or_ge k 16 with hk | hk
  · rw [BitVec.getLsbD_eq_getElem hk]
    exact decodeKey_getElem hi lo k hk
  · rw [BitVec.getLsbD_of_ge _ _ hk, if_neg (by omega), BitVec.getLsbD_of_ge _ _ (by omega)]

/-- The mask keeps bits 7:5 (R59). -/
theorem addrLoMask_getLsbD {k : Nat} (hk : k < 8) : addrLoMask.getLsbD k = decide (5 ≤ k) := by
  interval_cases k <;> rfl

theorem chunkAddress_getLsbD (hi lo : Byte) (k : Nat) :
    (chunkAddress hi lo).getLsbD k =
      if k < 5 then false else if k < 8 then lo.getLsbD k else hi.getLsbD (k - 8) := by
  rw [chunkAddress, ofBytes_getLsbD, BitVec.getLsbD_and]
  by_cases h8 : k < 8
  · rw [if_pos h8, if_pos h8, addrLoMask_getLsbD h8]
    by_cases h5 : k < 5
    · simp [h5, Nat.not_le.mpr h5]
    · simp [h5, Nat.le_of_not_lt h5]
  · rw [if_neg h8, if_neg h8, if_neg (by omega)]

/-- The low byte of an aligned address passes the mask unchanged. -/
theorem loByte_masked_of_aligned {a : BitVec 16} (ha : a &&& 0x001F = 0) : loByte a &&& addrLoMask = loByte a := by
  ext k hk
  rw [BitVec.getElem_and, ← BitVec.getLsbD_eq_getElem (x := addrLoMask) hk, addrLoMask_getLsbD hk]
  by_cases h5 : k < 5
  · have hbit : (a &&& 0x001F).getLsbD k = false := by rw [ha]; exact BitVec.getLsbD_zero
    have hmask : (0x001F : BitVec 16).getLsbD k = true := by interval_cases k <;> rfl
    rw [BitVec.getLsbD_and, hmask, Bool.and_true] at hbit
    simp [loByte, hbit]
  · simp [Nat.le_of_not_lt h5]

/-- An aligned address is formed by its own two bytes. -/
theorem chunkAddress_bytes_of_aligned {a : BitVec 16} (ha : a &&& 0x001F = 0) :
    chunkAddress (hiByte a) (loByte a) = a := by
  rw [chunkAddress, loByte_masked_of_aligned ha, ofBytes_bytes]

/-- Settles O30, bit by bit; an aligned address is reached from its own two bytes. -/
theorem pakAddressIsChunkAligned : Obligations.PakAddressIsChunkAligned :=
  ⟨chunkAddress_getLsbD, fun a ha => ⟨hiByte a, loByte a, chunkAddress_bytes_of_aligned ha⟩, fun _ => rfl⟩

end Sys2Proof.Machine

/-! PROOFS. The checksum is a fold over bytes, and a byte is a fold over its bits (40_crc8.md R71, R72). -/

namespace Sys2Proof.Machine

/-- The eight bit steps of a byte, most significant bit first (R71). -/
def crcByte (crc b : Byte) : Byte := (bitPositions.map b.getLsbD).foldl crcBit crc

theorem crcRound_of_lt (block : Block) (crc : Byte) {i : Nat} (hi : i < blockLen) :
    crcRound block crc i = crcByte crc block[i] := by
  simp only [crcRound, crcByte, crcInput, dif_pos hi, List.foldl_map]

/-- A round past the block takes the steps of a zero byte (R72). -/
theorem crcRound_of_ge (block : Block) (crc : Byte) {i : Nat} (hi : blockLen ≤ i) :
    crcRound block crc i = crcByte crc 0 := by
  have hbit (k : Nat) : (0 : Byte).getLsbD k = false := BitVec.getLsbD_zero
  simp only [crcRound, crcByte, crcInput, dif_neg (Nat.not_lt.mpr hi), List.foldl_map, hbit]

/-- `n` rounds consume the first `n` bytes of the block. -/
theorem foldl_crcRound_range (init : Byte) (block : Block) {n : Nat} (hn : n ≤ blockLen) :
    (List.range n).foldl (crcRound block) init = (block.toList.take n).foldl crcByte init := by
  induction n with
  | zero => rfl
  | succ n ih =>
    have hlen : n < block.toList.length := by rwa [Vector.length_toList]
    rw [List.range_succ, List.foldl_concat, ih (by omega), crcRound_of_lt block _ hn, ← Vector.getElem_toList hlen,
      ← List.take_append_getElem hlen, List.foldl_concat]

/-- The 33 rounds are the block's bytes and then a zero byte (R72). -/
theorem crc8_eq_foldl_crcByte (init : Byte) (block : Block) :
    crc8 init block = (block.toList ++ [0]).foldl crcByte init := by
  have hbytes : (List.range blockLen).foldl (crcRound block) init = block.toList.foldl crcByte init := by
    rw [foldl_crcRound_range init block le_rfl, List.take_of_length_le (by simp)]
  rw [crc8, crcRounds, List.range_succ, List.foldl_concat, hbytes, List.foldl_concat]
  exact crcRound_of_ge block _ le_rfl

/-- Settles O37: the checksum byte by byte, each byte taken apart into its bits. -/
theorem finalRoundFeedsAZeroByte : Obligations.FinalRoundFeedsAZeroByte := by
  intro init block
  rw [crc8_eq_foldl_crcByte, List.foldl_flatMap]
  rfl

end Sys2Proof.Machine

/-! PROOFS. Controller commands: CONTROLLER_READ at phase 1 (41_controller_commands.md R83) and the unknown opcodes
(R88). -/

namespace Sys2Proof

/-- An opcode that is none of the eight falls through every test of the phase 1 dispatch (R80, R88). -/
theorem selectPhase1_of_notMem_all {o : Opcodes} {op : Byte} (hop : op ∉ o.all) (p : Port) (blk : Option Byte) :
    selectPhase1 o p op blk = .ok (.unknown p op) := by
  simp only [Opcodes.all, List.mem_cons, List.not_mem_nil, or_false, not_or] at hop
  obtain ⟨hstatus, hreset, hcontrollerRead, hpakRead, hpakWrite, hrtcStatus, hrtcRead, hrtcWrite⟩ := hop
  simp only [selectPhase1, hstatus, hreset, hcontrollerRead, hpakRead, hpakWrite, hrtcStatus, hrtcRead, hrtcWrite,
    if_false]

end Sys2Proof

namespace Sys2Proof.Machine

/-! ### The error flag -/

/-- Setting the error flag is the whole delivery of DeviceAbsent (60_exceptions.md R131). -/
theorem State.onlyFlagRaised_setErrorFlag (s : State) : OnlyFlagRaised s s.setErrorFlag := by
  refine ⟨?flag, ?memory, rfl⟩
  case flag => exact (s.bufRead_bufWrite offFlag offFlag _).trans (if_pos rfl)
  case memory =>
    intro a ha
    have hne : a ≠ s.bufAddr offFlag := fun h => ha ⟨h.ge, h.le⟩
    exact (s.read_bufWrite offFlag _ a).trans (if_neg hne)

/-! ### The two commands -/

/-- Settles O26: the command ends in the state it started in, or in that state with the flag set. -/
theorem controllerReadSetupMarksOnlyTheFlag : Obligations.ControllerReadSetupMarksOnlyTheFlag := by
  intro p s hholds
  constructor
  · intro hconn
    exact (execControllerRead_next p s s).mpr ⟨hholds, (if_pos hconn).symm⟩
  · intro hdisc
    have hexec : exec (.controllerRead p) s = .next s.setErrorFlag :=
      (execControllerRead_next p s _).mpr ⟨hholds, (if_neg (ne_true_of_eq_false hdisc)).symm⟩
    exact ⟨s.setErrorFlag, hexec, s.onlyFlagRaised_setErrorFlag⟩

/-- Settles O28: the dispatch falls through to UNKNOWN, and the delivery of ProtocolError is empty. -/
theorem unknownOpcodesAreIgnored : Obligations.UnknownOpcodesAreIgnored := by
  intro p op s
  constructor
  · intro bytes hbyte hop
    rw [decode_phase1 hbyte]
    exact selectPhase1_of_notMem_all hop p _
  · intro hholds
    exact (execUnknown_next p op s s).mpr ⟨hholds, rfl⟩

end Sys2Proof.Machine

/-! PROOFS. RTC commands: BCD packing (42_rtc_commands.md R108), and the commands that only log (R104, R110, R113 to
R115). -/

namespace Sys2Proof.Machine

/-! ### BCD packing -/

/-- The packed byte as a number: the units digit fits below bit 4, so the OR is a sum. -/
theorem toNat_bcd (n : Nat) : (bcd n).toNat = n % 100 / 10 * 16 + n % 100 % 10 := by
  have hor : (n % 100 / 10) <<< 4 ||| n % 100 % 10 = n % 100 / 10 * 16 + n % 100 % 10 := by
    rw [← Nat.shiftLeft_add_eq_or_of_lt (by omega), Nat.shiftLeft_eq]
  rw [bcd, hor, BitVec.toNat_ofNat]
  omega

/-- Settles O51: both digits, and the value below 100, are read off the packed byte as a number. -/
theorem bcdPacksTwoDecimalDigits : Obligations.BcdPacksTwoDecimalDigits := by
  intro n
  refine ⟨?tens, ?units, ?hundreds, ?value⟩
  case tens =>
    apply BitVec.eq_of_toNat_eq
    rw [BitVec.extractLsb'_toNat, toNat_bcd, BitVec.toNat_ofNat, Nat.shiftRight_eq_div_pow]
    omega
  case units =>
    apply BitVec.eq_of_toNat_eq
    rw [BitVec.extractLsb'_toNat, toNat_bcd, BitVec.toNat_ofNat, Nat.shiftRight_zero]
    omega
  case hundreds => rw [bcd, bcd, Nat.mod_mod]
  case value =>
    intro hn
    rw [toNat_bcd]
    omega

/-! ### Commands that only log -/

/-- A port that owns an RTC takes the command's own effect (R100). -/
theorem State.onRtc_of_hasRtc {s : State} {p : Port} (hrtc : (s.port p).hasRtc = true) (t : State) :
    s.onRtc p t = t :=
  if_pos hrtc

/-- Delivering UnimplementedFeature is one log event (60_exceptions.md R134). -/
theorem State.onlyLogged_raise_unimplementedFeature (s : State) (what : Feature) :
    OnlyLogged .error (.unimplementedFeature what) s (s.raise (.unimplementedFeature what)) :=
  rfl

/-- Delivering RtcInvalidBlock is one error event (R110, R115). -/
theorem State.onlyLogged_raise_rtcInvalidBlock (s : State) (blk : Byte) :
    OnlyLogged .error (.rtcInvalidBlock blk) s (s.raise (.rtcInvalidBlock blk)) :=
  rfl

/-- Settles O45: on a port that owns an RTC the command is the delivery of UnimplementedFeature. -/
theorem rtcReadOfBlock1OnlyLogs : Obligations.RtcReadOfBlock1OnlyLogs := by
  intro p s hholds hrtc
  have hexec : exec (.rtcReadB1 p) s = .next (s.raise (.unimplementedFeature .rtcReadBlock1)) :=
    (execRtcReadB1_next p s _).mpr ⟨hholds, (State.onRtc_of_hasRtc hrtc _).symm⟩
  exact ⟨.error, _, hexec, s.onlyLogged_raise_unimplementedFeature _⟩

/-- Settles O46: the read and the write of an invalid block deliver the same error, and neither looks at a lock bit. -/
theorem invalidRtcBlocksAreOnlyLogged : Obligations.InvalidRtcBlocksAreOnlyLogged := by
  intro i p blk s hi hholds hrtc
  have heffect : s.raise (.rtcInvalidBlock blk) = s.onRtc p (s.raise (.rtcInvalidBlock blk)) :=
    (State.onRtc_of_hasRtc hrtc _).symm
  have hexec : exec i s = .next (s.raise (.rtcInvalidBlock blk)) := by
    rcases hi with rfl | rfl
    · exact (execRtcReadBinv_next p blk s _).mpr ⟨hholds, heffect⟩
    · exact (execRtcWriteBinv_next p blk s _).mpr ⟨hholds, heffect⟩
  exact ⟨_, hexec, s.onlyLogged_raise_rtcInvalidBlock blk⟩

/-- A write that its lock bit silences and that is otherwise unimplemented: nothing, or one log event (R113, R114). -/
theorem ignored_or_onlyLogged {s : State} {r : Result} {lock : Bool} {what : Feature}
    (hr : r = .next (if lock then s else s.raise (.unimplementedFeature what))) :
    (lock = true → r = .next s) ∧
      (lock = false → ∃ sev t, r = .next t ∧ OnlyLogged sev (.unimplementedFeature what) s t) := by
  constructor
  · rintro rfl
    exact hr
  · rintro rfl
    exact ⟨.error, _, hr, s.onlyLogged_raise_unimplementedFeature what⟩

/-- Settles O47: `Rtc.lock1` and `Rtc.lock2` are bits 0 and 1 of the control register (R18), and each guards its own
block. -/
theorem rtcWritesOfBlocks1And2 : Obligations.RtcWritesOfBlocks1And2 := by
  intro p s hrtc
  constructor
  · intro hholds
    exact ignored_or_onlyLogged
      ((execRtcWriteB1_next p s _).mpr ⟨hholds, (State.onRtc_of_hasRtc hrtc _).symm⟩)
  · intro hholds
    exact ignored_or_onlyLogged
      ((execRtcWriteB2_next p s _).mpr ⟨hholds, (State.onRtc_of_hasRtc hrtc _).symm⟩)

end Sys2Proof.Machine

/-! PROOFS. Encoding: every encoding decodes back, and what the decoder can answer (30_encoding.md R53, R65). -/

namespace Sys2Proof

/-! ### Each opcode selects its own command -/

/-- The dispatch of phase 1 on each of the eight opcodes: each differs from those tested before it (R5, R80). -/
theorem selectPhase1_opcodes {o : Opcodes} (h : o.Distinct) :
    (∀ p b, selectPhase1 o p o.status b = .ok (.status p)) ∧
    (∀ p b, selectPhase1 o p o.reset b = .ok (.reset p)) ∧
    (∀ p b, selectPhase1 o p o.controllerRead b = .ok (.controllerRead p)) ∧
    (∀ p b, selectPhase1 o p o.pakRead b = .ok (.pakRead p)) ∧
    (∀ p b, selectPhase1 o p o.pakWrite b = .ok (.pakWrite p)) ∧
    (∀ p b, selectPhase1 o p o.rtcStatus b = .ok (.rtcStatus p)) ∧
    (∀ p blk, selectPhase1 o p o.rtcRead (some blk) = .ok (rtcReadVariant p blk)) ∧
    (∀ p blk, selectPhase1 o p o.rtcWrite (some blk) = .ok (rtcWriteVariant p blk)) := by
  have hne : o.all.reverse.Pairwise (· ≠ ·) := List.nodup_reverse.mpr h
  simp only [Opcodes.all, List.reverse_cons, List.reverse_nil, List.nil_append, List.cons_append,
    List.pairwise_cons, List.mem_cons, List.not_mem_nil, or_false, ne_eq, forall_eq_or_imp, forall_eq] at hne
  simp [selectPhase1, hne]

/-- An invalid block index is none of the three fixed ones (R39). -/
theorem ne_fixedBlocks {blk : Byte} (h : 3 ≤ blk.toNat) : blk ≠ 0 ∧ blk ≠ 1 ∧ blk ≠ 2 := by
  refine ⟨?_, ?_, ?_⟩ <;> rintro rfl <;> simp at h

theorem rtcReadVariant_of_invalid {blk : Byte} (h : 3 ≤ blk.toNat) (p : Port) :
    rtcReadVariant p blk = .rtcReadBinv p blk := by
  obtain ⟨h0, h1, h2⟩ := ne_fixedBlocks h
  rw [rtcReadVariant, if_neg h0, if_neg h1, if_neg h2]

theorem rtcWriteVariant_of_invalid {blk : Byte} (h : 3 ≤ blk.toNat) (p : Port) :
    rtcWriteVariant p blk = .rtcWriteBinv p blk := by
  obtain ⟨h0, h1, h2⟩ := ne_fixedBlocks h
  rw [rtcWriteVariant, if_neg h0, if_neg h1, if_neg h2]

/-! ### Decoding what the encoder wrote -/

/-- Decoding the buffer of a block command is the dispatch on its opcode and its block index. -/
theorem decode_blockBuffer {c : Config} (hc : c.WellFormed) (p : Port) (op blk : Byte) :
    decode c .phase1 p (blockBuffer c.offsets c.offsets.rtcSpan op blk) = selectPhase1 c.opcodes p op (some blk) := by
  obtain ⟨-, -, -, -, -, -, hpayload, -⟩ := hc
  have hlen : c.offsets.rtcBlock < c.offsets.rtcSpan := block_lt_rtcSpan c.offsets
  have hop := blockBuffer_opcode (Nat.lt_trans hpayload hlen) hpayload op blk
  rw [decode_phase1 hop, blockBuffer_block hlen]

/-- Every well-formed command decodes from its encoding, whatever the parameters (R53). -/
theorem decode_encode {c : Config} {i : Instr} {e : Encoded} (hc : c.WellFormed) (hi : i.WellFormed c)
    (h : encode c i = some e) : decode c e.entry e.port e.bytes = .ok i := by
  obtain ⟨hdistinct, -⟩ := id hc
  obtain ⟨status, reset, controllerRead, pakRead, pakWrite, rtcStatus, rtcRead, rtcWrite⟩ :=
    selectPhase1_opcodes hdistinct
  have hop := fun op => opcodeBuffer_opcode (header_lt_span c.offsets i) op
  cases i with
  | status p => cases h; exact (decode_phase1 (hop _) p).trans (status p _)
  | reset p => cases h; exact (decode_phase1 (hop _) p).trans (reset p _)
  | controllerRead p => cases h; exact (decode_phase1 (hop _) p).trans (controllerRead p _)
  | pakRead p => cases h; exact (decode_phase1 (hop _) p).trans (pakRead p _)
  | pakWrite p => cases h; exact (decode_phase1 (hop _) p).trans (pakWrite p _)
  | rtcStatus p => cases h; exact (decode_phase1 (hop _) p).trans (rtcStatus p _)
  | rtcReadB0 p => cases h; exact (decode_blockBuffer hc p _ _).trans (rtcRead p _)
  | rtcReadB1 p => cases h; exact (decode_blockBuffer hc p _ _).trans (rtcRead p _)
  | rtcReadB2 p => cases h; exact (decode_blockBuffer hc p _ _).trans (rtcRead p _)
  | rtcReadBinv p blk =>
    cases h
    have hvariant := congrArg (Except.ok (ε := DecodeError)) (rtcReadVariant_of_invalid hi p)
    exact (decode_blockBuffer hc p _ _).trans ((rtcRead p blk).trans hvariant)
  | rtcWriteB0 p => cases h; exact (decode_blockBuffer hc p _ _).trans (rtcWrite p _)
  | rtcWriteB1 p => cases h; exact (decode_blockBuffer hc p _ _).trans (rtcWrite p _)
  | rtcWriteB2 p => cases h; exact (decode_blockBuffer hc p _ _).trans (rtcWrite p _)
  | rtcWriteBinv p blk =>
    cases h
    have hvariant := congrArg (Except.ok (ε := DecodeError)) (rtcWriteVariant_of_invalid hi p)
    exact (decode_blockBuffer hc p _ _).trans ((rtcWrite p blk).trans hvariant)
  | unknown p op => cases h; exact (decode_phase1 (hop _) p).trans (selectPhase1_of_notMem_all hi p _)
  | controllerReadExec p =>
    cases h
    rw [decode_phase2 (hop _), selectPhase2, if_pos rfl]
  | nop2 p op =>
    cases h
    rw [decode_phase2 (hop _), selectPhase2, if_neg hi]
  | crc8 => cases h

/-- Only the checksum engine, which has no opcode, has no encoding (R53). -/
theorem encode_eq_none_iff {c : Config} {i : Instr} : encode c i = none ↔ i = .crc8 := by
  cases i <;> simp [encode]

/-- Settles O2: the encoder's buffer holds the opcode, and the block index where there is one, at which the dispatch
selects the command. -/
theorem everyEncodingDecodesBack : Obligations.EveryEncodingDecodesBack :=
  fun _ _ hc hi => ⟨fun _ h => decode_encode hc hi h, encode_eq_none_iff⟩

/-! ### What the decoder can answer -/

/-- A command the decoder may answer at a port: well formed, and of that port. -/
structure Instr.DecodedAt (c : Config) (p : Port) (i : Instr) : Prop where
  wf : i.WellFormed c
  port : i.port? = some p

theorem rtcReadVariant_decodedAt (c : Config) (p : Port) (blk : Byte) : (rtcReadVariant p blk).DecodedAt c p := by
  by_cases h : 3 ≤ blk.toNat
  · rw [rtcReadVariant_of_invalid h]; exact ⟨h, rfl⟩
  · obtain rfl | rfl | rfl : blk = 0 ∨ blk = 1 ∨ blk = 2 := by bv_omega
    all_goals exact ⟨trivial, rfl⟩

theorem rtcWriteVariant_decodedAt (c : Config) (p : Port) (blk : Byte) : (rtcWriteVariant p blk).DecodedAt c p := by
  by_cases h : 3 ≤ blk.toNat
  · rw [rtcWriteVariant_of_invalid h]; exact ⟨h, rfl⟩
  · obtain rfl | rfl | rfl : blk = 0 ∨ blk = 1 ∨ blk = 2 := by bv_omega
    all_goals exact ⟨trivial, rfl⟩

/-- What a decoder may answer at a port: such a command, or that the buffer is too short, where `short` says so. -/
def AnswersAt (c : Config) (p : Port) (short : Prop) (r : Except DecodeError Instr) : Prop :=
  (∃ i, r = .ok i ∧ i.DecodedAt c p) ∨ r = .error .bufferTooShort ∧ short

theorem answersAt_ok {c : Config} {p : Port} {short : Prop} {i : Instr} (h : i.DecodedAt c p) :
    AnswersAt c p short (.ok i) :=
  .inl ⟨i, rfl, h⟩

/-- Phase 1 answers a command of its port, or finds no block index where it needs one. -/
theorem selectPhase1_answersAt (c : Config) (p : Port) (op : Byte) (b : Option Byte) :
    AnswersAt c p (b = none) (selectPhase1 c.opcodes p op b) := by
  by_cases hop : op ∈ c.opcodes.all
  case neg => exact selectPhase1_of_notMem_all hop p b ▸ answersAt_ok ⟨hop, rfl⟩
  unfold selectPhase1
  iterate 6 refine iteInduction (fun _ => answersAt_ok ⟨trivial, rfl⟩) fun _ => ?_
  refine iteInduction (fun _ => ?read) fun _ => iteInduction (fun _ => ?write) fun _ => ?other
  case read =>
    cases b with
    | none => exact .inr ⟨rfl, rfl⟩
    | some blk => exact answersAt_ok (rtcReadVariant_decodedAt c p blk)
  case write =>
    cases b with
    | none => exact .inr ⟨rfl, rfl⟩
    | some blk => exact answersAt_ok (rtcWriteVariant_decodedAt c p blk)
  case other => simp_all [Opcodes.all]

theorem selectPhase2_decodedAt (c : Config) (p : Port) (op : Byte) : (selectPhase2 c.opcodes p op).DecodedAt c p :=
  iteInduction (fun _ => ⟨trivial, rfl⟩) fun hop => ⟨hop, rfl⟩

/-- At a port in range the decoder answers a command of the port, or that the buffer ends before a byte it reads. -/
theorem decode_answersAt (c : Config) (entry : EntryPoint) (p : Port) (bytes : List Byte) :
    AnswersAt c p (bytes.length ≤ max offOpcode c.offsets.rtcBlock) (decode c entry p bytes) := by
  cases hop : bytes[offOpcode]? with
  | none =>
    refine .inr ⟨by simp only [decode, p.isLt, dif_pos, hop], ?_⟩
    exact le_max_of_le_left (List.getElem?_eq_none_iff.mp hop)
  | some op =>
    cases entry with
    | phase1 =>
      rw [decode_phase1 hop]
      refine (selectPhase1_answersAt c p op _).imp_right (And.imp_right fun hblock => ?_)
      exact le_max_of_le_right (List.getElem?_eq_none_iff.mp hblock)
    | phase2 =>
      rw [decode_phase2 hop]
      exact answersAt_ok (selectPhase2_decodedAt c p op)

/-- A port index out of range is refused before a byte is read (R65). -/
theorem decode_of_port_ge {port : Nat} (h : nPorts ≤ port) (c : Config) (entry : EntryPoint) (bytes : List Byte) :
    decode c entry port bytes = .error .portOutOfRange :=
  dif_neg (Nat.not_lt.mpr h)

/-- A decoded command is one the decoder may answer at a port in range. -/
theorem decodedAt_of_decode {c : Config} {entry : EntryPoint} {port : Nat} {bytes : List Byte} {i : Instr}
    (h : decode c entry port bytes = .ok i) : ∃ p : Port, p.val = port ∧ i.DecodedAt c p := by
  rcases Nat.lt_or_ge port nPorts with hport | hport
  · refine ⟨⟨port, hport⟩, rfl, ?_⟩
    rcases decode_answersAt c entry ⟨port, hport⟩ bytes with ⟨j, hj, hdecoded⟩ | ⟨herror, -⟩
    · cases h.symm.trans hj; exact hdecoded
    · cases h.symm.trans herror
  · cases h.symm.trans (decode_of_port_ge hport c entry bytes)

/-- Settles O3: every branch of the two dispatches answers a well-formed command of the port, so never the checksum
engine, which has none. -/
theorem decodedCommandsAreWellFormed : Obligations.DecodedCommandsAreWellFormed := by
  intro c entry port bytes i h
  obtain ⟨p, hp, hwf, hport⟩ := decodedAt_of_decode h
  refine ⟨hwf, ?_, p, hport, hp⟩
  rintro rfl
  cases hport

/-- Settles O1, by evaluation. -/
theorem sampleBuffersDecode : Obligations.SampleBuffersDecode :=
  ⟨rfl, rfl, rfl, rfl, rfl, rfl, rfl, rfl, rfl, rfl⟩

end Sys2Proof

/-! PROOFS. The step: every command as one equation, when an invocation runs and when it is refused
(20_memory.md R32, R44, R46; 60_exceptions.md R137; 93_implementation_defined.md I10, I11, I13, I20). -/

namespace Sys2Proof

/-- The encoder writes exactly the bytes the command needs (R53 to R58). -/
theorem encode_length {c : Config} {i : Instr} {e : Encoded} (h : encode c i = some e) :
    e.bytes.length = i.span c.offsets := by
  cases i <;> cases h <;> simp only [opcodeBuffer_length, blockBuffer_length]

/-- Under the default offsets 38 bytes are enough for every command (R32; decision D18). -/
theorem span_default_le (i : Instr) : i.span Config.default.offsets ≤ 38 := by
  cases i <;> exact Nat.le_of_ble_eq_true rfl

end Sys2Proof

namespace Sys2Proof.Machine

/-! ### Every command as one equation -/

/-- The state a command ends in, where it completes: what each meaning hands to `State.within`. -/
def endState (i : Instr) (s : State) : State :=
  match i with
  | .status p | .reset p => s.answerStatus p
  | .controllerRead p => if s.connected p then s else s.raise .deviceAbsent
  | .pakRead p => if s.connected p then (s.readAccessory p).appendCrc else s.raise .deviceAbsent
  | .pakWrite p => if s.connected p then (s.writeAccessory p).appendCrc else s.raise .deviceAbsent
  | .rtcStatus p => s.onRtc p s.answerRtcStatus
  | .rtcReadB0 p => s.onRtc p (s.answerControl p)
  | .rtcReadB1 p => s.onRtc p (s.raise (.unimplementedFeature .rtcReadBlock1))
  | .rtcReadB2 p => s.onRtc p (s.readTime p)
  | .rtcReadBinv p blk | .rtcWriteBinv p blk => s.onRtc p (s.raise (.rtcInvalidBlock blk))
  | .rtcWriteB0 p => s.onRtc p (s.loadControl p)
  | .rtcWriteB1 p => s.onRtc p (if (s.rtcAt p).lock1 then s else s.raise (.unimplementedFeature .rtcWriteBlock1))
  | .rtcWriteB2 p => s.onRtc p (if (s.rtcAt p).lock2 then s else s.raise (.unimplementedFeature .rtcWriteBlock2))
  | .unknown _ op => s.raise (.protocolError op)
  | .controllerReadExec p => if s.connected p then s.latchButtons p else s
  | .nop2 _ _ => s
  | .crc8 => s.appendCrc

/-- Whether a command would pack a negative calendar field (I20). -/
def timeEdge (i : Instr) (s : State) : Bool :=
  match i with
  | .rtcReadB2 p => s.negativeTime p
  | _ => false

theorem timeEdge_eq_false {i : Instr} {s : State} : timeEdge i s = false ↔ s.TimeNatural i := by
  cases i <;> simp [timeEdge, State.TimeNatural]

/-- Every command is its end state behind the two edges of its domain (R32; I20). -/
theorem exec_eq (i : Instr) (s : State) :
    exec i s =
      s.withinUnless (i.span s.cfg.offsets) (timeEdge i s) .negativeCalendarField (endState i s) := by
  cases i with
  | rtcReadB2 p => rfl
  | _ => exact (State.withinUnless_false ..).symm

/-- When a command completes, and how. -/
theorem exec_eq_next {i : Instr} {s t : State} :
    exec i s = .next t ↔ s.Holds i ∧ s.TimeNatural i ∧ t = endState i s := by
  rw [exec_eq, State.withinUnless_eq_next, timeEdge_eq_false, eq_comm (a := t)]

theorem exec_of_natural {i : Instr} {s : State} (h : s.Holds i) (ht : s.TimeNatural i) :
    exec i s = .next (endState i s) :=
  exec_eq_next.mpr ⟨h, ht, rfl⟩

theorem exec_of_negative {i : Instr} {s : State} (h : s.Holds i) (ht : ¬ s.TimeNatural i) :
    exec i s = .refused .negativeCalendarField := by
  have hedge : timeEdge i s = true := by rwa [← timeEdge_eq_false, Bool.not_eq_false] at ht
  rw [exec_eq, hedge, State.withinUnless_of_edge h]

theorem exec_of_short {i : Instr} {s : State} (h : ¬ s.Holds i) : exec i s = .refused .shortBuffer := by
  rw [exec_eq, State.withinUnless_of_lt (Nat.lt_of_not_le h)]

/-- Settles O19: the three cases of the one equation. -/
theorem everyCommandCompletesInALongEnoughBuffer : Obligations.EveryCommandCompletesInALongEnoughBuffer :=
  fun i s => ⟨fun h ht => ⟨endState i s, exec_of_natural h ht⟩, exec_of_negative, exec_of_short⟩

/-! ### The step, event by event -/

theorem step_idle {s : State} (h : s.pending = []) : step s = .next s := by
  simp only [step, h]

theorem step_powerOn {s : State} {rest : List HostEvent} (h : s.pending = .powerOn :: rest) :
    step s = .next s.popEvent.powerOn := by
  simp only [step, h]

theorem step_store {s : State} {a : Nat} {bytes : List Byte} {rest : List HostEvent}
    (h : s.pending = .store a bytes :: rest) : step s = .next (s.popEvent.hostStore a bytes) := by
  simp only [step, h]

theorem step_rebind {s : State} {p : Port} {e : PortEntry} {rest : List HostEvent}
    (h : s.pending = .rebind p e :: rest) : step s = .refused .rebindInSession := by
  simp only [step, h]

theorem step_invoke_error {s : State} {inv : Invocation} {rest : List HostEvent} {e : DecodeError}
    (h : s.pending = .invoke inv :: rest)
    (hdec : decode s.cfg inv.entry inv.port (s.bufferBytes inv.buf) = .error e) :
    step s = .refused (refusalOf e) := by
  simp only [step, h, State.fetch, hdec]

/-- Settles O6: the queue is popped and the buffer lent before the command runs. -/
theorem stepRunsDecodedCommand : Obligations.StepRunsDecodedCommand := by
  intro s inv rest i h hdec
  simp only [step, h, State.fetch, hdec, State.lend, State.popEvent, List.tail_cons]

/-- Taking an invocation does not change what a read of the time would find. -/
theorem timeNatural_invoked {s : State} {rest : List HostEvent} {buf : BufferRef} {i : Instr} :
    ({ s with pending := rest, lent := buf } : State).TimeNatural i ↔ s.TimeNatural i :=
  Iff.rfl

/-- Settles O7: what was encoded decodes back, and its buffer is as long as the command needs. -/
theorem encodedCommandRunsToItsEnd : Obligations.EncodedCommandRunsToItsEnd := by
  intro s i e base rest hcfg hwf henc hnat hbytes hpending
  have hdec : decode s.cfg e.entry e.port (s.bufferBytes ⟨base, e.bytes.length⟩) = .ok i := by
    rw [hbytes]; exact decode_encode hcfg hwf henc
  have hholds : ({ s with pending := rest, lent := ⟨base, e.bytes.length⟩ } : State).Holds i :=
    (encode_length henc).ge
  have hexec := exec_of_natural hholds (timeNatural_invoked.mpr hnat)
  exact ⟨_, (stepRunsDecodedCommand s _ rest i hpending hdec).trans hexec, hexec⟩

/-! ### When a step is refused -/

theorem refused_eq_refused {r q : Refusal} : (.refused q : Result) = .refused r ↔ r = q := by
  rw [Host.Outcome.refused.injEq, eq_comm]

/-- When a command is refused, and as what. -/
theorem exec_eq_refused {i : Instr} {s : State} {r : Refusal} :
    exec i s = .refused r ↔
      ¬ s.Holds i ∧ r = .shortBuffer ∨ s.Holds i ∧ ¬ s.TimeNatural i ∧ r = .negativeCalendarField := by
  by_cases h : s.Holds i
  · by_cases ht : s.TimeNatural i
    · simp only [exec_of_natural h ht, eq_true ht, eq_true h, reduceCtorEq, not_true, false_and, and_false, or_self]
    · rw [exec_of_negative h ht, refused_eq_refused]; tauto
  · rw [exec_of_short h, refused_eq_refused]; tauto

/-- Only a read of the time can find the time negative. -/
theorem not_timeNatural {i : Instr} {s : State} :
    ¬ s.TimeNatural i ↔ ∃ p, i = .rtcReadB2 p ∧ s.negativeTime p = true := by
  simp only [State.TimeNatural, not_forall, Bool.not_eq_false, exists_prop]

/-- When an invocation at a port in range is refused, and as what. -/
theorem step_invoke_refused {s : State} {inv : Invocation} {rest : List HostEvent} {r : Refusal}
    (h : s.pending = .invoke inv :: rest) (hport : inv.port < nPorts) :
    step s = .refused r ↔
      (r = .shortBuffer ∧
        ∀ i, decode s.cfg inv.entry inv.port (s.bufferBytes inv.buf) = .ok i → inv.buf.len < i.span s.cfg.offsets) ∨
      ∃ p, r = .negativeCalendarField ∧
        decode s.cfg inv.entry inv.port (s.bufferBytes inv.buf) = .ok (.rtcReadB2 p) ∧
        (Instr.rtcReadB2 p).span s.cfg.offsets ≤ inv.buf.len ∧ s.negativeTime p = true := by
  have hanswer := decode_answersAt s.cfg inv.entry ⟨inv.port, hport⟩ (s.bufferBytes inv.buf)
  simp only at hanswer
  rcases hanswer with ⟨i, hdec, -⟩ | ⟨hdec, -⟩
  · rw [stepRunsDecodedCommand s inv rest i h hdec, exec_eq_refused, hdec, timeNatural_invoked, not_timeNatural]
    simp only [State.Holds, not_le, Except.ok.injEq, forall_eq']
    constructor
    · rintro (⟨hshort, rfl⟩ | ⟨hholds, ⟨p, rfl, hneg⟩, rfl⟩)
      · exact .inl ⟨rfl, hshort⟩
      · exact .inr ⟨p, rfl, rfl, hholds, hneg⟩
    · rintro (⟨rfl, hshort⟩ | ⟨p, rfl, rfl, hholds, hneg⟩)
      · exact .inl ⟨hshort, rfl⟩
      · exact .inr ⟨hholds, ⟨p, rfl, hneg⟩, rfl⟩
  · rw [step_invoke_error h hdec, refused_eq_refused, hdec]
    simp [refusalOf]

/-- Settles O8: event by event; only a rebinding and an invocation can be refused. -/
theorem stepRefusesExactly : Obligations.StepRefusesExactly := by
  intro s r
  cases hp : s.pending with
  | nil => simp [step_idle hp]
  | cons event rest =>
    cases event with
    | powerOn => simp [step_powerOn hp]
    | store a bytes => simp [step_store hp]
    | rebind p e => simp [step_rebind hp, eq_comm (a := Refusal.rebindInSession)]
    | invoke inv =>
      rcases Nat.lt_or_ge inv.port nPorts with hport | hport
      · simp [step_invoke_refused hp hport, hport]
      · have hdec := decode_of_port_ge hport s.cfg inv.entry (s.bufferBytes inv.buf)
        simp [step_invoke_error hp hdec, refusalOf, hdec, Nat.not_lt.mpr hport, hport,
          eq_comm (a := Refusal.portOutOfRange)]

/-- Settles O9: 38 bytes reach past the block index and every operand, so the decoder answers a command and the command
holds its buffer. -/
theorem buffersOf38BytesAdmitEveryCommand : Obligations.BuffersOf38BytesAdmitEveryCommand := by
  intro s inv rest hoff hpending hport hlen
  have hanswer := decode_answersAt s.cfg inv.entry ⟨inv.port, hport⟩ (s.bufferBytes inv.buf)
  simp only at hanswer
  rcases hanswer with ⟨i, hdec, -⟩ | ⟨-, hshort⟩
  · have hholds : ({ s with pending := rest, lent := inv.buf } : State).Holds i := by
      rw [State.Holds, hoff]
      exact (span_default_le i).trans hlen
    have hstep := stepRunsDecodedCommand s inv rest i hpending hdec
    constructor
    · intro hnat
      refine ⟨_, hstep.trans (exec_of_natural hholds (timeNatural_invoked.mpr ?_))⟩
      rintro p rfl
      exact hnat p hdec
    · intro p hdec' hneg
      cases hdec.symm.trans hdec'
      rw [hstep, exec_of_negative hholds]
      exact not_timeNatural.mpr ⟨p, rfl, hneg⟩
  · have hreach : max offOpcode s.cfg.offsets.rtcBlock = 3 := by rw [hoff]; rfl
    rw [hreach, State.bufferBytes, List.length_map, List.length_range] at hshort
    omega

/-! ### Power-on, the host's stores, and the launch -/

/-- Settles O10: with nothing pending the step is the identity, and a store is one list write. -/
theorem idleAndHostStores : Obligations.IdleAndHostStores := by
  refine ⟨fun s => step_idle, fun s a bytes rest h => ⟨_, step_store h, ?_, ?_, ?_⟩⟩
  · simp [State.hostStore, State.popEvent, h]
  · intro k hk
    exact State.readByte_of_read (Memory.read_writeList_at hk)
  · intro b hb
    exact Memory.read_writeList_outside hb

/-- Settles O11: power-on at each port, after the event is taken from the queue. -/
theorem powerOnResetsOwnedRtcsOnly : Obligations.PowerOnResetsOwnedRtcsOnly := by
  intro s rest h
  refine ⟨_, step_powerOn h, ?_, s.popEvent.rtcAt_powerOn⟩
  simp [State.powerOn, State.popEvent, h]

theorem State.rtcAt_launch (c : Config) (ports : Vector PortEntry nPorts) (p : Port) :
    (State.launch c ports).rtcAt p = Rtc.powerOn := by
  simp [State.rtcAt, State.launch]

/-- Settles O12: every port's registers are those of power-on, and nothing is pending. -/
theorem launchLeavesPowerOnValues : Obligations.LaunchLeavesPowerOnValues := by
  refine ⟨fun c ports p => ?_, _, rfl⟩
  rw [State.rtcAt_launch]
  exact ⟨rfl, rfl, step_idle rfl⟩

/-- The invariant holds at every launch with well-formed parameters (10_state.md R21). -/
theorem invariant_launch {c : Config} (hc : c.WellFormed) (ports : Vector PortEntry nPorts) :
    (State.launch c ports).Invariant where
  mem := Memory.wf_nil
  cfg := hc
  clocks p := by rw [State.rtcAt_launch]; rfl

/-- Settles O14: reset is such a launch, under the default parameters. -/
theorem launchMeetsTheRunInvariant : Obligations.LaunchMeetsTheRunInvariant :=
  ⟨fun _ ports hc => invariant_launch hc ports, invariant_launch (by decide) _⟩

/-! ### A placed table word -/

/-- What was written at an address is the buffer that begins there. -/
theorem State.bufferBytes_of_writeList {s : State} {m : Memory} {a : Nat} {bytes : List Byte}
    (h : s.mem = m.writeList a bytes) : s.bufferBytes ⟨a, bytes.length⟩ = bytes := by
  refine List.ext_getElem (by simp [State.bufferBytes]) fun k _ hk => ?_
  have hread : s.mem.read (a + k) = some bytes[k] := by rw [h]; exact Memory.read_writeList_at hk
  simpa [State.bufferBytes] using State.readByte_of_read hread

/-- An invocation whose bytes the host stored at address 0 is fetched from there. -/
theorem step_storedInvocation {s : State} {e : Encoded} {i : Instr}
    (hdec : decode s.cfg e.entry e.port e.bytes = .ok i) :
    step { s with
        mem := s.mem.writeList 0 e.bytes
        pending := .invoke ⟨e.entry, e.port, ⟨0, e.bytes.length⟩⟩ :: s.pending } =
      exec i { s with mem := s.mem.writeList 0 e.bytes, lent := ⟨0, e.bytes.length⟩ } := by
  refine stepRunsDecodedCommand _ ⟨e.entry, e.port, ⟨0, e.bytes.length⟩⟩ s.pending i rfl ?_
  rw [State.bufferBytes_of_writeList (m := s.mem) rfl]
  exact hdec

/-- A table word names a command where its invocation decodes to it, under the default parameters (L3). -/
theorem decodeTableWord_eq_some {nbits w : Nat} {i : Instr} (h : decodeTableWord nbits w = some i) :
    decode Config.default (tableInvocation Config.default.offsets nbits w).entry
      (tableInvocation Config.default.offsets nbits w).port
      (tableInvocation Config.default.offsets nbits w).bytes = .ok i := by
  simp only [decodeTableWord] at h
  generalize decode Config.default _ _ _ = r at h ⊢
  cases r with
  | error _ => cases h
  | ok _ => cases h; rfl

/-- Settles O5: the buffer placed at address 0 is the word's, and the next event invokes it. -/
theorem placedTableWordRunsNext : Obligations.PlacedTableWordRunsNext := by
  intro s nbits w i hcfg hword
  have hdec := decodeTableWord_eq_some hword
  simp only [State.withFetchWord, State.placeTableWord]
  rw [← hcfg] at hdec ⊢
  refine ⟨_, step_storedInvocation hdec, ?_⟩
  simp only [tableInvocation, blockBuffer_length, le_refl]

/-! ### Phase 2 of other opcodes -/

/-- Settles O29: the dispatch of phase 2 takes the other branch, and NOP2 ends in the state it started in. -/
theorem phaseTwoOfOtherOpcodesDoesNothing : Obligations.PhaseTwoOfOtherOpcodesDoesNothing := by
  refine fun p op s => ⟨fun bytes hbyte hop => ?_, fun hholds => (execNop2_next p op s s).mpr ⟨hholds, rfl⟩⟩
  rw [decode_phase2 hbyte, selectPhase2, if_neg hop]

end Sys2Proof.Machine

/-! PROOFS. Rules about the state: frames of memory, the pak accessory case by case, one port's RTC registers. -/

namespace Sys2Proof.Machine

/-! ### Frames of memory -/

section
variable {W W' : Nat → Prop} {s t u : State}

theorem MemorySameOutside.of_mem_eq (h : t.mem = s.mem) : MemorySameOutside W s t :=
  fun a _ => by rw [h]

theorem MemorySameOutside.trans (hst : MemorySameOutside W s t) (htu : MemorySameOutside W t u) :
    MemorySameOutside W s u :=
  fun a ha => (htu a ha).trans (hst a ha)

theorem MemorySameOutside.mono (h : MemorySameOutside W s t) (hW : ∀ a, W a → W' a) : MemorySameOutside W' s t :=
  fun a ha => h a fun hw => ha (hW a hw)

theorem MemorySameOutside.bufRead_eq (h : MemorySameOutside W s t) (hlent : t.lent = s.lent) {i : Nat}
    (hi : ¬ W (s.bufAddr i)) : t.bufRead i = s.bufRead i :=
  State.bufRead_congr hlent (h _ hi)

/-- A byte write stays in a frame that takes in its address. -/
theorem MemorySameOutside.bufWrite (h : MemorySameOutside W s t) (hlent : t.lent = s.lent) {i : Nat}
    (hi : W (s.bufAddr i)) (v : Byte) : MemorySameOutside W s (t.bufWrite i v) := by
  have haddr : t.bufAddr i = s.bufAddr i := by simp only [State.bufAddr, hlent]
  intro a ha
  rw [State.read_bufWrite, if_neg fun heq => ha (by rwa [heq, haddr])]
  exact h a ha

/-- A list write stays in a frame that takes in the addresses it covers. -/
theorem MemorySameOutside.bufWriteList (h : MemorySameOutside W s t) (hlent : t.lent = s.lent) {i : Nat}
    {vs : List Byte} (hi : ∀ k < vs.length, W (s.bufAddr (i + k))) : MemorySameOutside W s (t.bufWriteList i vs) := by
  intro a ha
  refine (Memory.read_writeList_outside fun ⟨hle, hlt⟩ => ha ?_).trans (h a ha)
  simp only [State.bufAddr, hlent] at hle hlt hi
  have hk := hi (a - (s.lent.base + i)) (by omega)
  rwa [show s.lent.base + (i + (a - (s.lent.base + i))) = a by omega] at hk

theorem sameOutside_writeTypeCode (hlo : W (s.bufAddr s.cfg.offsets.typeLo)) (hhi : W (s.bufAddr s.cfg.offsets.typeHi))
    (v : BitVec 16) : MemorySameOutside W s (s.writeTypeCode v) :=
  ((MemorySameOutside.of_mem_eq rfl).bufWrite rfl hlo _).bufWrite rfl hhi _

theorem sameOutside_writeStatus (hlo : W (s.bufAddr s.cfg.offsets.typeLo)) (hhi : W (s.bufAddr s.cfg.offsets.typeHi))
    (hst : W (s.bufAddr s.cfg.offsets.status)) (p : Port) : MemorySameOutside W s (s.writeStatus p) :=
  (sameOutside_writeTypeCode hlo hhi _).bufWrite rfl hst _

theorem sameOutside_answerRtcStatus (hlo : W (s.bufAddr s.cfg.offsets.typeLo))
    (hhi : W (s.bufAddr s.cfg.offsets.typeHi)) (hst : W (s.bufAddr s.cfg.offsets.status)) :
    MemorySameOutside W s s.answerRtcStatus :=
  (sameOutside_writeTypeCode hlo hhi _).bufWrite rfl hst _

theorem sameOutside_latchButtons (h : ∀ k < 4, W (s.bufAddr (s.cfg.offsets.buttons + k))) (p : Port) :
    MemorySameOutside W s (s.latchButtons p) :=
  (MemorySameOutside.of_mem_eq (t := s.tookWord p) rfl).bufWriteList rfl h

theorem sameOutside_appendCrc (h : MemorySameOutside W s t) (hlent : t.lent = s.lent)
    (hcrc : W (s.bufAddr (t.cfg.offsets.pakData + 32))) : MemorySameOutside W s t.appendCrc :=
  h.bufWrite hlent hcrc _

theorem sameOutside_answerControl (hdata : ∀ k < 2, W (s.bufAddr (s.cfg.offsets.rtcData + k)))
    (hst : W (s.bufAddr s.cfg.offsets.rtcStatus)) (p : Port) : MemorySameOutside W s (s.answerControl p) :=
  ((MemorySameOutside.of_mem_eq rfl).bufWriteList (t := s) (vs := [_, _]) rfl hdata).bufWrite rfl hst _

theorem sameOutside_readTime (hdata : ∀ k < 8, W (s.bufAddr (s.cfg.offsets.rtcData + k)))
    (hst : W (s.bufAddr s.cfg.offsets.rtcStatus)) (p : Port) : MemorySameOutside W s (s.readTime p) :=
  ((MemorySameOutside.of_mem_eq (t := s.tookTime.setRtc p (s.advancedRtc p)) rfl).bufWriteList
    (vs := timeBytes (s.timeFields p)) rfl hdata).bufWrite rfl hst _

theorem sameOutside_loadControl (hst : W (s.bufAddr s.cfg.offsets.rtcStatus)) (p : Port) :
    MemorySameOutside W s (s.loadControl p) :=
  (MemorySameOutside.of_mem_eq (t := s.setControl p s.controlOperand) rfl).bufWrite rfl hst _

end

/-! ### The accessory of a port (41_controller_commands.md R86, R87) -/

/-- The block a read of the accessory delivers: the backend's answer, or zeros where there is no backend. -/
def State.accessoryBlock (s : State) (p : Port) : Block :=
  if pakPresent (s.port p).pak then s.nextBlock p s.pakAddress else zeroBlock

/-- The events an accessory command logs: one warning for an unknown pak (60_exceptions.md R133). -/
def accessoryEvents (pak : Pak) : List LogEvent :=
  if pak = .unknown then [{ severity := .warning, kind := .unsupportedAccessory .unknown }] else []

theorem State.readAccessory_mem (s : State) (p : Port) :
    (s.readAccessory p).mem = s.mem.writeList (s.bufAddr s.cfg.offsets.pakData) (s.accessoryBlock p).toList := by
  cases h : (s.port p).pak <;>
    simp [State.readAccessory, State.accessoryBlock, h, pakPresent, State.bufAddr, State.raise]

theorem State.readAccessory_calls (s : State) (p : Port) :
    (s.readAccessory p).calls =
      s.calls ++ if pakPresent (s.port p).pak then [.readBlock p s.pakAddress] else [] := by
  cases h : (s.port p).pak <;> simp [State.readAccessory, h, pakPresent]

theorem State.readAccessory_log (s : State) (p : Port) :
    (s.readAccessory p).log = s.log ++ accessoryEvents (s.port p).pak := by
  cases h : (s.port p).pak <;> simp [State.readAccessory, h, accessoryEvents, State.raise]

theorem State.writeAccessory_calls (s : State) (p : Port) :
    (s.writeAccessory p).calls =
      s.calls ++ if pakPresent (s.port p).pak then [.writeBlock p s.pakAddress s.pakData] else [] := by
  cases h : (s.port p).pak <;> simp [State.writeAccessory, h, pakPresent]

theorem State.writeAccessory_log (s : State) (p : Port) :
    (s.writeAccessory p).log = s.log ++ accessoryEvents (s.port p).pak := by
  cases h : (s.port p).pak <;> simp [State.writeAccessory, h, accessoryEvents, State.raise]

theorem accessoryEvents_cases (pak : Pak) : accessoryEvents pak = [] ∨ ∃ ev, accessoryEvents pak = [ev] := by
  unfold accessoryEvents
  split
  · exact .inr ⟨_, rfl⟩
  · exact .inl rfl

theorem sameOutside_readAccessory {W : Nat → Prop} {s : State}
    (h : ∀ k < 32, W (s.bufAddr (s.cfg.offsets.pakData + k))) (p : Port) :
    MemorySameOutside W s (s.readAccessory p) := by
  intro a ha
  rw [State.readAccessory_mem]
  exact (MemorySameOutside.of_mem_eq rfl).bufWriteList rfl (by simpa only [Vector.length_toList] using h) a ha

/-! ### The RTC registers of one port -/

theorem State.rtcAt_congr {s t : State} (h : t.rtc = s.rtc) (p : Port) : t.rtcAt p = s.rtcAt p := by
  rw [State.rtcAt, State.rtcAt, h]

theorem State.rtcAt_of_set {s t : State} {p : Port} {r : Rtc} (h : t.rtc = s.rtc.set p r) : t.rtcAt p = r :=
  (State.rtcAt_congr (s := s.setRtc p r) h p).trans (s.rtcAt_setRtc_same p r)

theorem State.rtcAt_of_set_other {s t : State} {p q : Port} {r : Rtc} (h : t.rtc = s.rtc.set p r) (hq : q ≠ p) :
    t.rtcAt q = s.rtcAt q :=
  (State.rtcAt_congr (s := s.setRtc p r) h q).trans (s.rtcAt_setRtc_other hq r)

theorem State.ClocksSampled.congr {s t : State} (h : s.ClocksSampled) (hr : t.rtc = s.rtc) : t.ClocksSampled :=
  fun p => by rw [State.rtcAt_congr hr]; exact h p

/-- Loading one port's registers with a sampled clock keeps every clock sampled. -/
theorem State.ClocksSampled.set {s t : State} (h : s.ClocksSampled) {p : Port} {r : Rtc} (hr : t.rtc = s.rtc.set p r)
    (hclock : r.clock = r.last) : t.ClocksSampled := by
  intro q
  by_cases hq : q = p
  · rw [hq, State.rtcAt_of_set hr]; exact hclock
  · rw [State.rtcAt_of_set_other hr hq]; exact h q

/-- An advance takes a clock at its last sample to the new one, backwards too (42_rtc_commands.md R106). -/
theorem Rtc.advance_sampled {r : Rtc} (h : r.clock = r.last) (now : Int) : (r.advance now).clock = now := by
  simp only [Rtc.advance, h]; omega

end Sys2Proof.Machine

/-! PROOFS. What every command and every step keeps: the invariant, the session, the buffer's header, the other ports'
RTCs, and who is called (20_memory.md R38 to R41, R46, R47; 60_exceptions.md R131, R140). -/

namespace Sys2Proof.Machine

/-! ### The invariant of every run -/

theorem exec_keeps_session {i : Instr} {s t : State} (h : exec i s = .next t) : SameSession s t := by
  apply exec_ends i s t h <;> intros <;> exact ⟨by simp, by simp⟩

/-- Every command writes through `Memory.write`, which keeps the canonical form. -/
theorem exec_keeps_memory_wf {i : Instr} {s t : State} (h : exec i s = .next t) (hwf : s.mem.wf) : t.mem.wf := by
  have write : ∀ {m : Memory} {a v}, m.wf → (m.write a v).wf := fun h => Memory.wf_write h _ _
  have writeList : ∀ {m : Memory} {a vs}, m.wf → (m.writeList a vs).wf := fun h => Memory.wf_writeList _ h _
  apply exec_ends (P := fun t => t.mem.wf) i s t h
  case same => exact hwf
  case flag => exact write hwf
  case log => exact fun _ _ => hwf
  case stat => exact fun _ _ => write (write (write hwf))
  case latch => exact fun _ _ _ => writeList hwf
  case pr => exact fun p _ _ => write (by rw [State.readAccessory_mem]; exact writeList hwf)
  case pw => exact fun p _ _ => write (by rwa [State.writeAccessory_mem])
  case crc => exact fun _ => write hwf
  case rs => exact fun _ _ => write (write (write hwf))
  case r0 => exact fun _ _ => write (writeList hwf)
  case r2 => exact fun _ _ _ => write (writeList hwf)
  case w0 => exact fun _ _ => write hwf

/-- Only a read of the time moves a clock, to the time it samples (42_rtc_commands.md R106). -/
theorem exec_keeps_clocksSampled {i : Instr} {s t : State} (h : exec i s = .next t) (hs : s.ClocksSampled) :
    t.ClocksSampled := by
  apply exec_ends i s t h
  case r2 => exact fun p _ _ => hs.set (State.readTime_rtc s p) (Rtc.advance_sampled (hs p) _)
  case w0 => exact fun p _ => hs.set (State.loadControl_rtc s p) (hs p)
  all_goals intros; exact hs.congr (by simp)

/-- Everything a step can do: nothing, a power-on, a host's store, or the command of an invocation. -/
theorem step_next_cases {s t : State} (h : step s = .next t) :
    t = s ∨ t = s.popEvent.powerOn ∨ (∃ a bytes, t = s.popEvent.hostStore a bytes) ∨
      ∃ (inv : Invocation) (i : Instr), exec i (s.popEvent.lend inv.buf) = .next t := by
  cases hp : s.pending with
  | nil => cases (step_idle hp).symm.trans h; exact .inl rfl
  | cons event rest =>
    cases event with
    | powerOn => cases (step_powerOn hp).symm.trans h; exact .inr (.inl rfl)
    | store a bytes => cases (step_store hp).symm.trans h; exact .inr (.inr (.inl ⟨a, bytes, rfl⟩))
    | rebind p e => cases (step_rebind hp).symm.trans h
    | invoke inv =>
      cases hdec : decode s.cfg inv.entry inv.port (s.bufferBytes inv.buf) with
      | error e => cases (step_invoke_error hp hdec).symm.trans h
      | ok i =>
        have hlend : s.popEvent.lend inv.buf = { s with pending := rest, lent := inv.buf } := by
          simp only [State.lend, State.popEvent, hp, List.tail_cons]
        refine .inr (.inr (.inr ⟨inv, i, ?_⟩))
        rw [hlend, ← stepRunsDecodedCommand s inv rest i hp hdec]
        exact h

/-- Settles O15: no case of the step writes the parameters or the port table. -/
theorem everyStepKeepsTheSession : Obligations.EveryStepKeepsTheSession := by
  intro s t h
  rcases step_next_cases h with rfl | rfl | ⟨a, bytes, rfl⟩ | ⟨inv, i, hexec⟩
  · exact ⟨rfl, rfl⟩
  · exact ⟨rfl, rfl⟩
  · exact ⟨rfl, rfl⟩
  · exact exec_keeps_session (s := s.popEvent.lend inv.buf) hexec

theorem step_keeps_memory_wf {s t : State} (h : step s = .next t) (hwf : s.mem.wf) : t.mem.wf := by
  rcases step_next_cases h with rfl | rfl | ⟨a, bytes, rfl⟩ | ⟨inv, i, hexec⟩
  · exact hwf
  · exact hwf
  · exact Memory.wf_writeList bytes hwf a
  · exact exec_keeps_memory_wf hexec hwf

theorem clocksSampled_powerOn {s : State} (hs : s.ClocksSampled) : s.powerOn.ClocksSampled := by
  intro p
  rw [State.rtcAt_powerOn]
  split
  · rfl
  · exact hs p

theorem step_keeps_clocksSampled {s t : State} (h : step s = .next t) (hs : s.ClocksSampled) : t.ClocksSampled := by
  rcases step_next_cases h with rfl | rfl | ⟨a, bytes, rfl⟩ | ⟨inv, i, hexec⟩
  · exact hs
  · exact clocksSampled_powerOn (hs.congr rfl)
  · exact hs.congr rfl
  · exact exec_keeps_clocksSampled hexec (hs.congr rfl)

/-- Settles O13, part by part of the invariant. -/
theorem everyStepKeepsTheRunInvariant : Obligations.EveryStepKeepsTheRunInvariant := by
  intro s t hinv h
  obtain ⟨hcfg, -⟩ := everyStepKeepsTheSession s t h
  exact { mem := step_keeps_memory_wf h hinv.mem
          cfg := hcfg ▸ hinv.cfg
          clocks := step_keeps_clocksSampled h hinv.clocks }

/-! ### Where a command writes -/

/-- The addresses of the payload within the first `n` bytes of the lent buffer (20_memory.md R48). -/
def State.Payload (s : State) (n a : Nat) : Prop := ∃ i, 3 ≤ i ∧ i < n ∧ a = s.bufAddr i

/-- The header is no payload. -/
theorem State.not_payload_of_lt {s : State} {n k : Nat} (hk : k < 3) : ¬ s.Payload n (s.bufAddr k) := by
  rintro ⟨i, hi, -, heq⟩
  have : k = i := s.bufAddr_inj.mp heq
  omega

/-- The operands a command writes lie within its span (R47). -/
theorem written_lt_span (o : Offsets) :
    (o.typeLo < o.statusSpan ∧ o.typeHi < o.statusSpan ∧ o.status < o.statusSpan) ∧ o.buttons + 3 < o.buttonsSpan ∧
      o.pakData + 32 < o.pakSpan ∧ o.rtcData + 7 < o.rtcSpan ∧ o.rtcStatus < o.rtcSpan := by
  simp only [Offsets.statusSpan, Offsets.buttonsSpan, Offsets.pakSpan, Offsets.pakCrc, Offsets.rtcSpan, blockLen]
  omega

/-- A command that completes raised the error flag alone, or wrote payload bytes alone, within its span (R47). -/
theorem exec_writes {i : Instr} {s t : State} (hcfg : s.cfg.WellFormed) (h : exec i s = .next t) :
    t = s.setErrorFlag ∨ MemorySameOutside (s.Payload (i.span s.cfg.offsets)) s t := by
  obtain ⟨-, hlo, hhi, hst, hbuttons, hpak, -, hdata, hrtc⟩ := hcfg
  obtain ⟨⟨hlo', hhi', hst'⟩, hbuttons', hpak', hdata', hrtc'⟩ := written_lt_span s.cfg.offsets
  have payload : ∀ {n j}, 3 ≤ j → j < n → s.Payload n (s.bufAddr j) := fun h3 hn => ⟨_, h3, hn, rfl⟩
  apply exec_ends i s t h
  case same => exact .inr fun _ _ => rfl
  case flag => exact .inl rfl
  case log => exact fun _ _ => .inr fun _ _ => rfl
  case stat =>
    rintro p (rfl | rfl)
    all_goals exact .inr (sameOutside_writeStatus (payload hlo hlo') (payload hhi hhi') (payload hst hst') p)
  case latch =>
    rintro p rfl -
    exact .inr (sameOutside_latchButtons (W := s.Payload s.cfg.offsets.buttonsSpan)
      (fun k hk => payload (by omega) (by omega)) p)
  case pr =>
    rintro p rfl -
    have hread := sameOutside_readAccessory (W := s.Payload s.cfg.offsets.pakSpan)
      (fun k hk => payload (by omega) (by omega)) p
    refine .inr (sameOutside_appendCrc hread (by simp) ?_)
    rw [State.readAccessory_cfg]
    exact payload (by omega) hpak'
  case pw =>
    rintro p rfl -
    refine .inr (sameOutside_appendCrc (.of_mem_eq (by simp)) (by simp) ?_)
    rw [State.writeAccessory_cfg]
    exact payload (by omega) hpak'
  case crc =>
    rintro rfl
    exact .inr (sameOutside_appendCrc (.of_mem_eq rfl) rfl (payload (by omega) hpak'))
  case rs =>
    rintro p rfl
    exact .inr (sameOutside_answerRtcStatus (payload hlo hlo') (payload hhi hhi') (payload hst hst'))
  case r0 =>
    rintro p rfl
    exact .inr (sameOutside_answerControl (W := s.Payload s.cfg.offsets.rtcSpan)
      (fun k hk => payload (by omega) (by omega)) (payload hrtc hrtc') p)
  case r2 =>
    rintro p rfl -
    exact .inr (sameOutside_readTime (W := s.Payload s.cfg.offsets.rtcSpan)
      (fun k hk => payload (by omega) (by omega)) (payload hrtc hrtc') p)
  case w0 =>
    rintro p rfl
    exact .inr (sameOutside_loadControl (payload hrtc hrtc') p)

theorem State.bufRead_setErrorFlag (s : State) (i : Nat) :
    s.setErrorFlag.bufRead i = if i = 1 then s.bufRead 1 ||| 0x80 else s.bufRead i :=
  s.bufRead_bufWrite offFlag i _

/-- Delivering DeviceAbsent writes byte 1 alone (60_exceptions.md R131). -/
theorem State.read_setErrorFlag {s : State} {a : Nat} (h : a ≠ s.bufAddr 1) :
    s.setErrorFlag.mem.read a = s.mem.read a :=
  (s.read_bufWrite offFlag _ a).trans (if_neg h)

/-- No command writes a byte of the header but byte 1 (R47). -/
theorem exec_keeps_header {i : Instr} {s t : State} (hcfg : s.cfg.WellFormed) (h : exec i s = .next t) {k : Nat}
    (hk : k < 3) (hk1 : k ≠ 1) : t.mem.read (s.bufAddr k) = s.mem.read (s.bufAddr k) := by
  rcases exec_writes hcfg h with rfl | hframe
  · exact State.read_setErrorFlag (by rwa [Ne, s.bufAddr_inj])
  · exact hframe _ (State.not_payload_of_lt hk)

theorem exec_keeps_lent {i : Instr} {s t : State} (h : exec i s = .next t) : t.lent = s.lent := by
  apply exec_ends i s t h <;> intros <;> simp

/-- Settles O16: the flag and the payload lie in a buffer that holds the command, and neither is byte 0 or 2. -/
theorem commandsStayInTheirBuffer : Obligations.CommandsStayInTheirBuffer := by
  intro i s t hcfg h
  refine ⟨?_, exec_keeps_header hcfg h (by decide) (by decide), exec_keeps_header hcfg h (by decide) (by decide), ?_⟩
  · have hholds : i.span s.cfg.offsets ≤ s.lent.len := exec_holds i s t h
    have hheader : 2 < i.span s.cfg.offsets := header_lt_span s.cfg.offsets i
    have hin : ∀ {k}, k < i.span s.cfg.offsets → s.InBuffer (s.bufAddr k) := fun hk => by
      simp only [State.InBuffer, State.bufAddr]; omega
    rcases exec_writes hcfg h with rfl | hframe
    · exact (MemorySameOutside.of_mem_eq rfl).bufWrite rfl (hin (k := offFlag) (by simp only [offFlag]; omega)) _
    · refine hframe.mono ?_
      rintro a ⟨k, -, hk, rfl⟩
      exact hin hk
  · rcases exec_writes hcfg h with rfl | hframe
    · exact .inr (s.bufRead_setErrorFlag 1)
    · exact .inl (hframe.bufRead_eq (exec_keeps_lent h) (State.not_payload_of_lt (by decide)))

/-- The decode of phase 2 looks at the opcode byte alone (41_controller_commands.md R84, R85). -/
theorem decode_phase2_congr {c : Config} {port : Nat} {bytes bytes' : List Byte}
    (h : bytes[offOpcode]? = bytes'[offOpcode]?) : decode c .phase2 port bytes = decode c .phase2 port bytes' := by
  simp only [decode, h]

/-- Settles O23: byte 2 reads as before, and the parameters stay. -/
theorem phaseTwoDecodesTheSameOpcode : Obligations.PhaseTwoDecodesTheSameOpcode := by
  intro i s t port hcfg h
  obtain ⟨hsame, -⟩ := exec_keeps_session h
  have hopcode : t.readByte (s.lent.base + offOpcode) = s.readByte (s.lent.base + offOpcode) :=
    State.readByte_congr (exec_keeps_header hcfg h (by decide) (by decide))
  rw [hsame]
  refine decode_phase2_congr ?_
  by_cases hlen : offOpcode < s.lent.len
  · simp only [State.bufferBytes, List.getElem?_map, List.getElem?_range hlen, Option.map_some, hopcode]
  · simp [State.bufferBytes, Nat.le_of_not_lt hlen]

/-! ### Whose RTC, which errors, which calls -/

/-- Settles O17: only a read of the time and a control write load RTC registers, and those of their own port. -/
theorem commandsTouchOnlyTheirPort : Obligations.CommandsTouchOnlyTheirPort := by
  intro i s t h q hq
  have hother : ∀ {p : Port} {r : Rtc} {u : State}, i.port? = some p → u.rtc = s.rtc.set p r →
      u.rtcAt q = s.rtcAt q := fun hp hu => State.rtcAt_of_set_other hu fun heq => hq (heq ▸ hp)
  apply exec_ends i s t h
  case r2 => rintro p rfl -; exact hother rfl (State.readTime_rtc s p)
  case w0 => rintro p rfl; exact hother rfl (State.loadControl_rtc s p)
  all_goals intros; exact State.rtcAt_congr (by simp) q

theorem exec_log {i : Instr} {s t : State} (h : exec i s = .next t) :
    t.log = s.log ∨ ∃ ev, t.log = s.log ++ [ev] := by
  have accessory : ∀ pak, s.log ++ accessoryEvents pak = s.log ∨ ∃ ev, s.log ++ accessoryEvents pak = s.log ++ [ev] :=
    fun pak => (accessoryEvents_cases pak).imp (fun h => by simp [h]) fun ⟨ev, h⟩ => ⟨ev, by rw [h]⟩
  apply exec_ends i s t h
  case log => exact fun sev k => .inr ⟨_, rfl⟩
  case pr => exact fun p _ _ => by rw [State.appendCrc_log, State.readAccessory_log]; exact accessory _
  case pw => exact fun p _ _ => by rw [State.appendCrc_log, State.writeAccessory_log]; exact accessory _
  all_goals intros; exact .inl (by simp)

/-- Everything a command can call: each collaborator by its own command, with its own operands (20_memory.md R38, R40,
R41). -/
theorem exec_calls {i : Instr} {s t : State} (h : exec i s = .next t) :
    t.calls = s.calls ∨ ∃ c, t.calls = s.calls ++ [c] ∧
      ((∃ p, i = .controllerReadExec p ∧ s.connected p = true ∧ c = .inputSource p) ∨
        (∃ p, i = .rtcReadB2 p ∧ (s.port p).hasRtc = true ∧ c = .wallClock) ∨
        (∃ p, i = .pakRead p ∧ s.connected p = true ∧ pakPresent (s.port p).pak = true ∧
          c = .readBlock p (chunkAddress (s.bufRead 3) (s.bufRead 4))) ∨
        (∃ p, i = .pakWrite p ∧ s.connected p = true ∧ pakPresent (s.port p).pak = true ∧
          c = .writeBlock p (chunkAddress (s.bufRead 3) (s.bufRead 4)) s.pakData)) := by
  apply exec_ends i s t h
  case latch => exact fun p hi hconn => .inr ⟨_, rfl, .inl ⟨p, hi, hconn, rfl⟩⟩
  case r2 => exact fun p hi hrtc => .inr ⟨_, rfl, .inr (.inl ⟨p, hi, hrtc, rfl⟩)⟩
  case pr =>
    intro p hi hconn
    rw [State.appendCrc_calls, State.readAccessory_calls]
    split
    · exact .inr ⟨_, rfl, .inr (.inr (.inl ⟨p, hi, hconn, ‹_›, rfl⟩))⟩
    · exact .inl (List.append_nil _)
  case pw =>
    intro p hi hconn
    rw [State.appendCrc_calls, State.writeAccessory_calls]
    split
    · exact .inr ⟨_, rfl, .inr (.inr (.inr ⟨p, hi, hconn, ‹_›, rfl⟩))⟩
    · exact .inl (List.append_nil _)
  all_goals intros; exact .inl (by simp)

/-- Settles O20: a command that raises the flag logs nothing, and one that does not leaves byte 1 as it was. -/
theorem atMostOneErrorAndOneCall : Obligations.AtMostOneErrorAndOneCall := by
  intro i s t hcfg h
  constructor
  · rcases exec_writes hcfg h with rfl | hframe
    · exact .inl rfl
    · have hflag : t.bufRead 1 = s.bufRead 1 :=
        hframe.bufRead_eq (exec_keeps_lent h) (State.not_payload_of_lt (by decide))
      exact (exec_log h).imp_right fun hlog => ⟨hlog, hflag⟩
  · exact (exec_calls h).imp_right fun ⟨c, hc, _⟩ => ⟨c, hc⟩

/-- Settles O21: the call made is the one the command makes. -/
theorem collaboratorsAreCalledByTheseCommandsOnly : Obligations.CollaboratorsAreCalledByTheseCommandsOnly := by
  intro i s t c h hc
  rcases exec_calls h with hnone | ⟨c', hc', hwho⟩
  · simp [hnone] at hc
  · obtain rfl : c = c' := by simpa using hc.symm.trans hc'
    exact hwho

end Sys2Proof.Machine

/-! PROOFS. Two runs of one command: a relation between states that every operation of the command keeps relates the end
states. It is used for the other ports (30_encoding.md R65) and for a preset error flag (70_reset_and_hazards.md R158). -/

namespace Sys2Proof.Machine

/-- A relation between the start states of two runs of a command: what the command looks at is the same in both, and every
operation it is made of keeps the relation. -/
structure RunsAlike (i : Instr) (R : State → State → Prop) : Prop where
  cfg : ∀ {s s'}, R s s' → s'.cfg = s.cfg
  port : ∀ {s s' p}, R s s' → i.port? = some p → s'.port p = s.port p
  rtcAt : ∀ {s s' p}, R s s' → i.port? = some p → s'.rtcAt p = s.rtcAt p
  lent : ∀ {s s'}, R s s' → s'.lent = s.lent
  script : ∀ {s s'}, R s s' → s'.script = s.script
  calls : ∀ {s s'}, R s s' → s'.calls = s.calls
  pakAddress : ∀ {s s'}, R s s' → s'.pakAddress = s.pakAddress
  pakData : ∀ {s s'}, R s s' → s'.pakData = s.pakData
  controlOperand : ∀ {s s'}, R s s' → s'.controlOperand = s.controlOperand
  errorFlag : ∀ {s s'}, R s s' → i.readsFlag = true → s'.errorFlag = s.errorFlag
  bufWrite : ∀ {s s'}, R s s' → ∀ k v, R (s.bufWrite k v) (s'.bufWrite k v)
  setErrorFlag : ∀ {s s'}, R s s' → R s.setErrorFlag s'.setErrorFlag
  setRtc : ∀ {s s' p}, R s s' → i.port? = some p → ∀ r, R (s.setRtc p r) (s'.setRtc p r)
  logEvent : ∀ {s s'}, R s s' → ∀ sev k, R (s.logEvent sev k) (s'.logEvent sev k)
  called : ∀ {s s'}, R s s' → ∀ script calls,
    R { s with script := script, calls := calls } { s' with script := script, calls := calls }

namespace RunsAlike

/-- A choice on a condition that both runs decide alike. -/
theorem ite {R : State → State → Prop} {q : Prop} [Decidable q] {t t' u u' : State} (ht : R t t') (hu : R u u') :
    R (if q then t else u) (if q then t' else u') := by
  by_cases hq : q
  · rwa [if_pos hq, if_pos hq]
  · rwa [if_neg hq, if_neg hq]

section
variable {i : Instr} {R : State → State → Prop} (hR : RunsAlike i R) {s s' : State} (h : R s s')
include hR h

theorem bufWriteList (k : Nat) (vs : List Byte) : R (s.bufWriteList k vs) (s'.bufWriteList k vs) := by
  induction vs generalizing s s' k with
  | nil => exact h
  | cons v vs ih => exact ih (hR.bufWrite h k v) (k + 1)

theorem raise (k : ErrorKind) : R (s.raise k) (s'.raise k) := by
  cases k with
  | deviceAbsent => exact hR.setErrorFlag h
  | protocolError op => exact h
  | unsupportedAccessory pak => exact hR.logEvent h _ _
  | unimplementedFeature what => exact hR.logEvent h _ _
  | rtcInvalidBlock blk => exact hR.logEvent h _ _

theorem writeTypeCode (v : BitVec 16) : R (s.writeTypeCode v) (s'.writeTypeCode v) := by
  have hwrites := hR.bufWrite (hR.bufWrite h s.cfg.offsets.typeLo (loByte v)) s.cfg.offsets.typeHi (hiByte v)
  simpa only [State.writeTypeCode, hR.cfg h] using hwrites

theorem writeRtcOk : R s.writeRtcOk s'.writeRtcOk := by
  have hwrite := hR.bufWrite h s.cfg.offsets.rtcStatus s.cfg.rtcStatusOk
  simpa only [State.writeRtcOk, hR.cfg h] using hwrite

theorem appendCrc : R s.appendCrc s'.appendCrc := by
  have hwrite := hR.bufWrite h s.cfg.offsets.pakCrc (crc8 s.cfg.crcInit s.pakData)
  simpa only [State.appendCrc, hR.cfg h, hR.pakData h] using hwrite

theorem storePakData (b : Block) : R (s.storePakData b) (s'.storePakData b) := by
  have hwrite := hR.bufWriteList h s.cfg.offsets.pakData b.toList
  simpa only [State.storePakData, hR.cfg h] using hwrite

theorem rtcAbsent : R s.rtcAbsent s'.rtcAbsent := by
  simp only [State.rtcAbsent, hR.cfg h]
  split
  · exact hR.raise h _
  · exact h

theorem answerRtcStatus : R s.answerRtcStatus s'.answerRtcStatus := by
  have hwrites := hR.bufWrite (hR.writeTypeCode h s.cfg.rtcTypeCode) s.cfg.offsets.status s.cfg.rtcStatusOk
  simpa only [State.answerRtcStatus, hR.cfg h, State.writeTypeCode_cfg] using hwrites

theorem nextTime : s'.nextTime = s.nextTime := by
  simp only [State.nextTime, hR.script h, hR.calls h]

theorem tookTime : R s.tookTime s'.tookTime := by
  have hcalled := hR.called h { s.script with times := s.script.times.tail } (s.calls ++ [.wallClock])
  simpa only [State.tookTime, hR.script h, hR.calls h] using hcalled

theorem latchButtons (p : Port) : R (s.latchButtons p) (s'.latchButtons p) := by
  have hword : s'.nextWord p = s.nextWord p := by simp only [State.nextWord, hR.script h, hR.calls h]
  have hcalled := hR.called h { s.script with words := s.script.words.tail } (s.calls ++ [.inputSource p])
  have hwrites := hR.bufWriteList hcalled s.cfg.offsets.buttons (wordBytes (s.nextWord p))
  simpa only [State.latchButtons, State.tookWord, hR.script h, hR.calls h, hR.cfg h, hword] using hwrites

/-! What a command does at its own port -/

variable {p : Port} (hp : i.port? = some p)
include hp

theorem onRtc {t t' : State} (ht : R t t') : R (s.onRtc p t) (s'.onRtc p t') := by
  simp only [State.onRtc, hR.port h hp]
  exact ite ht (hR.rtcAbsent h)

theorem ifConnected {t t' u u' : State} (ht : R t t') (hu : R u u') :
    R (if s.connected p then t else u) (if s'.connected p then t' else u') := by
  simp only [State.connected, hR.port h hp]
  exact ite ht hu

theorem answerStatus (hreads : i.readsFlag = true) : R (s.answerStatus p) (s'.answerStatus p) := by
  have hwrites := hR.bufWrite (hR.writeTypeCode h s.cfg.controllerTypeCode) s.cfg.offsets.status
    (pakStatusByte (s.port p).pak)
  have hstatus : R (s.writeStatus p) (s'.writeStatus p) := by
    simpa only [State.writeStatus, hR.cfg h, hR.port h hp, State.writeTypeCode_cfg] using hwrites
  simp only [State.answerStatus, hR.errorFlag h hreads]
  exact ite h (hR.ifConnected h hp hstatus (hR.raise h _))

theorem readAccessory : R (s.readAccessory p) (s'.readAccessory p) := by
  have hblock : s'.nextBlock p s.pakAddress = s.nextBlock p s.pakAddress := by
    simp only [State.nextBlock, hR.script h, hR.calls h, hR.port h hp]
  have hcalled := hR.called h { s.script with blocks := s.script.blocks.tail } (s.calls ++ [.readBlock p s.pakAddress])
  have hbackend : R ((s.tookBlock p s.pakAddress).storePakData (s.nextBlock p s.pakAddress))
      ((s'.tookBlock p s.pakAddress).storePakData (s.nextBlock p s.pakAddress)) := by
    refine hR.storePakData ?_ _
    simpa only [State.tookBlock, hR.script h, hR.calls h] using hcalled
  simp only [State.readAccessory, hR.port h hp, hR.pakAddress h, hblock]
  cases (s.port p).pak with
  | mem | rumble | transfer => exact hbackend
  | noPak => exact hR.storePakData h _
  | unknown => exact hR.storePakData (hR.raise h _) _

theorem writeAccessory : R (s.writeAccessory p) (s'.writeAccessory p) := by
  have hcalled := hR.called h s.script (s.calls ++ [.writeBlock p s.pakAddress s.pakData])
  have hbackend : R (s.recordCall (.writeBlock p s.pakAddress s.pakData))
      (s'.recordCall (.writeBlock p s.pakAddress s.pakData)) := by
    simpa only [State.recordCall, ← hR.script h, ← hR.calls h] using hcalled
  simp only [State.writeAccessory, hR.port h hp, hR.pakAddress h, hR.pakData h]
  cases (s.port p).pak with
  | mem | rumble | transfer => exact hbackend
  | noPak => exact h
  | unknown => exact hR.raise h _

theorem answerControl : R (s.answerControl p) (s'.answerControl p) := by
  have hwrites := hR.writeRtcOk
    (hR.bufWriteList h s.cfg.offsets.rtcData [loByte (s.rtcAt p).control, hiByte (s.rtcAt p).control])
  simpa only [State.answerControl, hR.cfg h, hR.rtcAt h hp] using hwrites

theorem loadControl : R (s.loadControl p) (s'.loadControl p) := by
  have hset := hR.writeRtcOk (hR.setRtc h hp { s.rtcAt p with control := s.controlOperand })
  simpa only [State.loadControl, State.setControl, hR.rtcAt h hp, hR.controlOperand h] using hset

theorem advancedRtc : s'.advancedRtc p = s.advancedRtc p := by
  simp only [State.advancedRtc, hR.rtcAt h hp, hR.nextTime h]

theorem readTime : R (s.readTime p) (s'.readTime p) := by
  have hset := hR.setRtc (hR.tookTime h) hp (s.advancedRtc p)
  have hwrites := hR.writeRtcOk (hR.bufWriteList hset s.cfg.offsets.rtcData (timeBytes (s.timeFields p)))
  simpa only [State.readTime, State.timeFields, hR.cfg h, hR.advancedRtc h hp] using hwrites

end

/-- The end states of the two runs are related, command by command. -/
theorem endState {i : Instr} {R : State → State → Prop} (hR : RunsAlike i R) {s s' : State} (h : R s s') :
    R (endState i s) (endState i s') := by
  cases i with
  | status p => exact hR.answerStatus h rfl rfl
  | reset p => exact hR.answerStatus h rfl rfl
  | controllerRead p => exact hR.ifConnected h rfl h (hR.raise h _)
  | pakRead p => exact hR.ifConnected h rfl (hR.appendCrc (hR.readAccessory h rfl)) (hR.raise h _)
  | pakWrite p => exact hR.ifConnected h rfl (hR.appendCrc (hR.writeAccessory h rfl)) (hR.raise h _)
  | rtcStatus p => exact hR.onRtc h rfl (hR.answerRtcStatus h)
  | rtcReadB0 p => exact hR.onRtc h rfl (hR.answerControl h rfl)
  | rtcReadB1 p => exact hR.onRtc h rfl (hR.raise h _)
  | rtcReadB2 p => exact hR.onRtc h rfl (hR.readTime h rfl)
  | rtcReadBinv p blk => exact hR.onRtc h rfl (hR.raise h _)
  | rtcWriteB0 p => exact hR.onRtc h rfl (hR.loadControl h rfl)
  | rtcWriteB1 p =>
    refine hR.onRtc h rfl ?_
    rw [hR.rtcAt h rfl]
    exact ite h (hR.raise h _)
  | rtcWriteB2 p =>
    refine hR.onRtc h rfl ?_
    rw [hR.rtcAt h rfl]
    exact ite h (hR.raise h _)
  | rtcWriteBinv p blk => exact hR.onRtc h rfl (hR.raise h _)
  | unknown p op => exact h
  | controllerReadExec p => exact hR.ifConnected h rfl (hR.latchButtons h p) h
  | nop2 p op => exact h
  | crc8 => exact hR.appendCrc h

/-- Where one run completes the other does, in a related state. -/
theorem exec {i : Instr} {R : State → State → Prop} (hR : RunsAlike i R) {s s' t : State} (h : R s s')
    (hexec : exec i s = .next t) : ∃ t', exec i s' = .next t' ∧ R t t' := by
  obtain ⟨hholds, hnat, rfl⟩ := exec_eq_next.mp hexec
  have hholds' : s'.Holds i := by rwa [State.Holds, hR.cfg h, hR.lent h]
  have hnat' : s'.TimeNatural i := by
    rintro p rfl
    rw [State.negativeTime_congr (hR.cfg h) (hR.port h rfl) (hR.rtcAt h rfl) (hR.script h) (hR.calls h)]
    exact hnat p rfl
  exact ⟨_, exec_of_natural hholds' hnat', hR.endState h⟩

end RunsAlike

/-! ### The other ports -/

/-- States that agree at a port agree at it after each operation of a command of the port (30_encoding.md R65). -/
theorem runsAlike_agreeAt {i : Instr} {p : Port} (hp : i.port? = some p) : RunsAlike i (AgreeAt p) := by
  have own : ∀ {q}, i.port? = some q → q = p := fun hq => Option.some.inj (hq.symm.trans hp)
  have addr : ∀ {s s' : State}, AgreeAt p s s' → ∀ k, s'.bufAddr k = s.bufAddr k := fun h k => by
    simp only [State.bufAddr, h.lent]
  have read : ∀ {s s' : State}, AgreeAt p s s' → ∀ k, s'.bufRead k = s.bufRead k := fun h k =>
    State.bufRead_congr h.lent (by rw [h.mem])
  exact {
    cfg := fun h => h.cfg
    port := fun h hq => own hq ▸ h.port
    rtcAt := fun h hq => own hq ▸ h.rtc
    lent := fun h => h.lent
    script := fun h => h.script
    calls := fun h => h.calls
    pakAddress := fun h => by simp only [State.pakAddress, read h]
    pakData := fun h => by simp only [State.pakData, State.bufBlock, h.cfg, read h]
    controlOperand := fun h => by simp only [State.controlOperand, h.cfg, read h]
    errorFlag := fun h _ => by simp only [State.errorFlag, read h]
    bufWrite := fun h k v => { h with mem := by simp only [State.bufWrite_mem, h.mem, addr h] }
    setErrorFlag := fun h => { h with mem := by simp only [State.setErrorFlag_mem, h.mem, addr h, read h] }
    setRtc := fun h hq r => { h with rtc := by rw [own hq, State.rtcAt_setRtc_same, State.rtcAt_setRtc_same] }
    logEvent := fun h sev k => { h with log := by simp only [State.logEvent_log, h.log] }
    called := fun h _ _ => { h with script := rfl, calls := rfl } }

/-- Settles O18: the two runs agree at the port, and the second keeps its own other ports (O15, O17). -/
theorem otherPortsDoNotMatter : Obligations.OtherPortsDoNotMatter := by
  intro i p s₁ s₂ t₁ hp hagree hexec
  obtain ⟨t₂, hexec₂, hagree'⟩ := (runsAlike_agreeAt hp).exec hagree hexec
  obtain ⟨-, hports⟩ := exec_keeps_session hexec₂
  refine ⟨t₂, hexec₂, hagree', hports, fun q hq => commandsTouchOnlyTheirPort i s₂ t₂ hexec₂ q ?_⟩
  rw [hp]
  exact fun heq => hq (Option.some.inj heq).symm

/-! ### A preset error flag -/

/-- Two states of one session that differ in byte 1 of the lent buffer alone. -/
structure DifferInFlagByte (s s' : State) : Prop where
  cfg : s.cfg.WellFormed
  rest : OnlyMemory s s'
  mem : MemorySameOutside (s.Indices 1 1) s s'

theorem DifferInFlagByte.bufRead {s s' : State} (h : DifferInFlagByte s s') {k : Nat} (hk : k ≠ 1) :
    s'.bufRead k = s.bufRead k := by
  refine h.mem.bufRead_eq (by rw [h.rest]) fun ⟨hle, hge⟩ => hk ?_
  exact s.bufAddr_inj.mp (le_antisymm hge hle)

/-- Writing bytes to both at one address keeps the difference in byte 1, where the bytes are equal or the address is
that of byte 1. -/
theorem DifferInFlagByte.bufWrite {s s' : State} (h : DifferInFlagByte s s') {k : Nat} {v v' : Byte}
    (hv : v' = v ∨ k = 1) : DifferInFlagByte (s.bufWrite k v) (s'.bufWrite k v') where
  cfg := h.cfg
  rest := by rw [h.rest]; rfl
  mem := by
    intro a ha
    have haddr : s'.bufAddr k = s.bufAddr k := by rw [h.rest]; rfl
    rw [State.read_bufWrite, State.read_bufWrite, haddr]
    by_cases hak : a = s.bufAddr k
    · rcases hv with rfl | rfl
      · rw [if_pos hak, if_pos hak]
      · exact absurd ⟨hak.ge, hak.le⟩ ha
    · rw [if_neg hak, if_neg hak]
      exact h.mem a ha

/-- A command that does not read the flag runs alike from states that differ in byte 1 alone (R158): every operand stands
at index 3 or above (R48). -/
theorem runsAlike_differInFlagByte {i : Instr} (hi : i.readsFlag = false) : RunsAlike i DifferInFlagByte where
  cfg h := by rw [h.rest]
  port h _ := by rw [h.rest]; rfl
  rtcAt h _ := by rw [h.rest]; rfl
  lent h := by rw [h.rest]
  script h := by rw [h.rest]
  calls h := by rw [h.rest]
  pakAddress h := by
    rw [State.pakAddress, h.bufRead (by decide), h.bufRead (by decide)]; rfl
  pakData {s s'} h := by
    obtain ⟨-, -, -, -, -, hpak, -⟩ := h.cfg
    rw [State.pakData, show s'.cfg = s.cfg by rw [h.rest]]
    exact State.bufBlock_congr fun k _ => h.bufRead (by omega)
  controlOperand {s s'} h := by
    obtain ⟨-, -, -, -, -, -, -, hdata, -⟩ := h.cfg
    rw [State.controlOperand, show s'.cfg = s.cfg by rw [h.rest], h.bufRead (by omega), h.bufRead (by omega)]
    rfl
  errorFlag _ hreads := by simp [hi] at hreads
  bufWrite h _ _ := h.bufWrite (.inl rfl)
  setErrorFlag h := h.bufWrite (.inr rfl)
  setRtc h _ r := ⟨h.cfg, by rw [h.rest]; rfl, h.mem⟩
  logEvent h _ _ := ⟨h.cfg, by rw [h.rest]; rfl, h.mem⟩
  called h _ _ := ⟨h.cfg, by rw [h.rest]; rfl, h.mem⟩

theorem differInFlagByte_setErrorFlag {s : State} (hcfg : s.cfg.WellFormed) : DifferInFlagByte s s.setErrorFlag :=
  ⟨hcfg, rfl, fun _ ha => State.read_setErrorFlag fun heq => ha ⟨heq.ge, heq.le⟩⟩

/-- Settles O22: the two runs end in states that differ in byte 1 alone. -/
theorem presetFlagMattersToStatusAndResetOnly : Obligations.PresetFlagMattersToStatusAndResetOnly := by
  intro i s t hcfg hi hexec
  obtain ⟨u, hexec', hdiffer⟩ := (runsAlike_differInFlagByte hi).exec (differInFlagByte_setErrorFlag hcfg) hexec
  refine ⟨u, hexec', hdiffer.rest, ?_⟩
  have haddr : t.bufAddr 1 = s.bufAddr 1 := by simp only [State.bufAddr, exec_keeps_lent hexec]
  exact hdiffer.mem.mono fun a ha => by rwa [State.Indices, haddr] at ha

end Sys2Proof.Machine

/-! PROOFS. Controller commands: STATUS and RESET (41_controller_commands.md R81, R82), the input word at phase 2 (R84). -/

namespace Sys2Proof.Machine

/-- The default offsets, written out (00_scope.md R5). -/
theorem State.DefaultOffsets.values {s : State} (h : s.DefaultOffsets) :
    s.cfg.offsets = { typeLo := 3, typeHi := 4, status := 5, buttons := 3, pakData := 5, rtcBlock := 3, rtcData := 4,
                      rtcStatus := 12 } :=
  h

/-- An index of the lent buffer between two others has its address between theirs. -/
theorem State.indices_bufAddr {s : State} {i j k : Nat} (hi : i ≤ k) (hj : k ≤ j) : s.Indices i j (s.bufAddr k) :=
  ⟨Nat.add_le_add_left hi _, Nat.add_le_add_left hj _⟩

/-! ### STATUS and RESET -/

theorem State.errorFlag_eq_true {s : State} : s.errorFlag = true ↔ s.bufRead 1 &&& 0x80 ≠ 0 :=
  bne_iff_ne

theorem State.errorFlag_eq_false {s : State} : s.errorFlag = false ↔ s.bufRead 1 &&& 0x80 = 0 :=
  bne_eq_false_iff_eq

/-- The answer with the flag clear and no controller (R81). -/
theorem State.answerStatus_of_disconnected {s : State} {p : Port} (hflag : s.errorFlag = false)
    (hconn : s.connected p = false) : s.answerStatus p = s.setErrorFlag := by
  simp only [State.answerStatus, hflag, hconn, Bool.false_eq_true, if_false, State.raise]

/-- The answer with the flag clear on a connected port (R81). -/
theorem State.answerStatus_of_connected {s : State} {p : Port} (hflag : s.errorFlag = false)
    (hconn : s.connected p = true) : s.answerStatus p = s.writeStatus p := by
  simp only [State.answerStatus, hflag, hconn, Bool.false_eq_true, if_false, if_true]

theorem exec_status_or_reset {i : Instr} {p : Port} {s : State} (hi : i = .status p ∨ i = .reset p)
    (hholds : s.Holds i) : exec i s = .next (s.answerStatus p) := by
  rcases hi with rfl | rfl
  · exact (execStatus_next p s _).mpr ⟨hholds, rfl⟩
  · exact (execReset_next p s _).mpr ⟨hholds, rfl⟩

/-- The bytes of the answer under the default offsets. -/
theorem State.bufRead_writeStatus {s : State} (ho : s.DefaultOffsets) (p : Port) :
    (s.writeStatus p).bufRead 3 = loByte s.cfg.controllerTypeCode ∧
      (s.writeStatus p).bufRead 4 = hiByte s.cfg.controllerTypeCode ∧
      (s.writeStatus p).bufRead 5 = pakStatusByte (s.port p).pak := by
  simp [State.writeStatus, State.writeTypeCode, State.bufRead_bufWrite, ho.values]

theorem pakStatusByte_eq (pak : Pak) :
    pakStatusByte pak = if pak = .mem ∨ pak = .rumble ∨ pak = .transfer then 1 else 0 := by
  cases pak <;> rfl

/-- Settles O24, answer by answer. -/
theorem statusAndResetAnswer : Obligations.StatusAndResetAnswer := by
  intro i p s hi ho hholds
  refine ⟨_, exec_status_or_reset hi hholds, fun hset => ?_, fun hclear hconn => ?_, fun hclear hconn => ?_⟩
  · exact if_pos (State.errorFlag_eq_true.mpr hset)
  · rw [State.answerStatus_of_disconnected (State.errorFlag_eq_false.mpr hclear) hconn]
    exact s.onlyFlagRaised_setErrorFlag
  · rw [State.answerStatus_of_connected (State.errorFlag_eq_false.mpr hclear) hconn]
    obtain ⟨hlo, hhi, hst⟩ := State.bufRead_writeStatus ho p
    refine ⟨rfl, sameOutside_writeStatus ?_ ?_ ?_ p, hlo, hhi, hst.trans (pakStatusByte_eq _)⟩
    all_goals rw [ho.values]; exact State.indices_bufAddr (by decide) (by decide)

theorem State.onlyMemory_answerStatus (s : State) (p : Port) : OnlyMemory s (s.answerStatus p) := by
  unfold State.answerStatus
  split
  · rfl
  split
  · rfl
  · rfl

theorem State.inBuffer_bufAddr {s : State} {k : Nat} (h : k < s.lent.len) : s.InBuffer (s.bufAddr k) :=
  ⟨Nat.le_add_right _ _, Nat.add_lt_add_left h _⟩

/-- STATUS stays in a buffer that holds it, whatever the offsets. -/
theorem sameOutside_answerStatus {s : State} {p : Port} (hholds : s.Holds (.status p)) :
    MemorySameOutside s.InBuffer s (s.answerStatus p) := by
  obtain ⟨⟨hlo, hhi, hst⟩, -⟩ := written_lt_span s.cfg.offsets
  have inBuffer : ∀ {k}, k < s.cfg.offsets.statusSpan → s.InBuffer (s.bufAddr k) := fun hk =>
    State.inBuffer_bufAddr (Nat.lt_of_lt_of_le hk hholds)
  have hheader : offFlag < s.cfg.offsets.statusSpan :=
    Nat.lt_of_succ_lt (header_lt_span s.cfg.offsets (.status p))
  unfold State.answerStatus
  split
  · exact fun _ _ => rfl
  split
  · exact sameOutside_writeStatus (inBuffer hlo) (inBuffer hhi) (inBuffer hst) p
  · exact (MemorySameOutside.of_mem_eq rfl).bufWrite rfl (inBuffer hheader) _

/-- Settles O25: RESET is STATUS under a second opcode. -/
theorem resetCommandResetsNothing : Obligations.ResetCommandResetsNothing := by
  intro p s t h
  obtain ⟨hholds, rfl⟩ := (execReset_next p s t).mp h
  exact ⟨s.onlyMemory_answerStatus p, sameOutside_answerStatus hholds, exec_status_or_reset (.inl rfl) hholds⟩

/-! ### The input word -/

/-- A word is its four bytes, low byte last here (30_encoding.md R55). -/
theorem wordBytes_append (w : BitVec 32) :
    w.extractLsb' 24 8 ++ w.extractLsb' 16 8 ++ w.extractLsb' 8 8 ++ w.extractLsb' 0 8 = w := by
  ext k hk
  simp only [BitVec.getElem_append, BitVec.getElem_extractLsb']
  rw [← BitVec.getLsbD_eq_getElem hk]
  split_ifs <;> congr 1 <;> omega

theorem State.bufRead_latchButtons {s : State} (ho : s.DefaultOffsets) (p : Port) :
    (s.latchButtons p).bufRead 3 = (s.nextWord p).extractLsb' 0 8 ∧
      (s.latchButtons p).bufRead 4 = (s.nextWord p).extractLsb' 8 8 ∧
      (s.latchButtons p).bufRead 5 = (s.nextWord p).extractLsb' 16 8 ∧
      (s.latchButtons p).bufRead 6 = (s.nextWord p).extractLsb' 24 8 := by
  simp [State.latchButtons, State.bufRead_bufWriteList, ho.values, wordBytes]

/-- Settles O27: the four bytes stored are those of the word the input source answers. -/
theorem controllerReadExecLatchesTheWord : Obligations.ControllerReadExecLatchesTheWord := by
  intro p s ho hholds
  constructor
  · intro hdisc
    exact (execControllerReadExec_next p s s).mpr ⟨hholds, (if_neg (ne_true_of_eq_false hdisc)).symm⟩
  · intro hconn
    have hexec : exec (.controllerReadExec p) s = .next (s.latchButtons p) :=
      (execControllerReadExec_next p s _).mpr ⟨hholds, (if_pos hconn).symm⟩
    refine ⟨_, hexec, rfl, sameOutside_latchButtons (fun k hk => ?_) p, ?_⟩
    · simp only [ho.values]
      exact State.indices_bufAddr (Nat.le_add_right 3 k) (by omega)
    · obtain ⟨h3, h4, h5, h6⟩ := State.bufRead_latchButtons ho p
      rw [h3, h4, h5, h6, wordBytes_append]

end Sys2Proof.Machine

/-! PROOFS. Pak commands and the checksum engine (41_controller_commands.md R86, R87; 40_crc8.md R70). -/

namespace Sys2Proof.Machine

/-! ### The data region and its checksum -/

/-- Appending the checksum writes the byte after the data region. -/
theorem State.bufRead_appendCrc (s : State) (j : Nat) :
    s.appendCrc.bufRead j = if j = s.cfg.offsets.pakData + 32 then crc8 s.cfg.crcInit s.pakData else s.bufRead j :=
  s.bufRead_bufWrite _ j _

@[simp] theorem State.pakData_appendCrc (s : State) : s.appendCrc.pakData = s.pakData :=
  State.bufBlock_congr fun k hk => by
    rw [State.bufRead_appendCrc, State.appendCrc_cfg, if_neg (by simp only [blockLen] at hk; omega)]

theorem State.bufRead_pakData (s : State) {k : Nat} (hk : k < blockLen) :
    s.bufRead (s.cfg.offsets.pakData + k) = s.pakData[k] :=
  (s.bufBlock_getElem _ k hk).symm

/-- What a read of the accessory leaves in the data region (R86). -/
@[simp] theorem State.pakData_readAccessory (s : State) (p : Port) :
    (s.readAccessory p).pakData = s.accessoryBlock p := by
  refine Vector.ext fun k hk => ?_
  have hread : (s.readAccessory p).mem.read (s.bufAddr s.cfg.offsets.pakData + k) = some (s.accessoryBlock p)[k] := by
    rw [State.readAccessory_mem, Memory.read_writeList_at (by simpa using hk), Vector.getElem_toList]
  rw [← State.bufRead_pakData _ hk]
  refine State.readByte_of_read ?_
  rw [← hread, State.bufAddr, State.bufAddr, State.readAccessory_cfg, State.readAccessory_lent, Nat.add_assoc]

@[simp] theorem State.pakData_writeAccessory (s : State) (p : Port) : (s.writeAccessory p).pakData = s.pakData := by
  rw [State.pakData, State.writeAccessory_cfg]
  exact State.bufBlock_congr fun k _ => State.bufRead_congr (by simp) (by simp)

/-- Settles O36: the engine's one write is the checksum of the 32 bytes at 5. -/
theorem checksumEngineStoresOneByte : Obligations.ChecksumEngineStoresOneByte := by
  intro s ho hholds
  have hframe : MemorySameOutside (s.Indices 37 37) s s.appendCrc := by
    refine sameOutside_appendCrc (.of_mem_eq rfl) rfl ?_
    rw [ho.values]
    exact State.indices_bufAddr (by decide) (by decide)
  refine ⟨_, (execCrc8_next s _).mpr ⟨hholds, rfl⟩, rfl, hframe, ?_⟩
  rw [State.bufRead_appendCrc, State.pakData, ho.values]
  rfl

/-! ### PAK_READ -/

theorem exec_pakRead_of_connected {p : Port} {s : State} (hholds : s.Holds (.pakRead p))
    (hconn : s.connected p = true) : exec (.pakRead p) s = .next (s.readAccessory p).appendCrc :=
  (execPakRead_next p s _).mpr ⟨hholds, (if_pos hconn).symm⟩

theorem State.accessoryBlock_of_backend {s : State} {p : Port} (h : pakPresent (s.port p).pak = true) :
    s.accessoryBlock p = s.nextBlock p s.pakAddress :=
  if_pos h

theorem State.accessoryBlock_of_noBackend {s : State} {p : Port} (h : pakPresent (s.port p).pak = false) :
    s.accessoryBlock p = zeroBlock :=
  if_neg (ne_true_of_eq_false h)

/-- The frame and the bytes of PAK_READ under the default offsets, whatever the pak. -/
theorem pakRead_bytes {s : State} (ho : s.DefaultOffsets) (p : Port) :
    MemorySameOutside (s.Indices 5 37) s (s.readAccessory p).appendCrc ∧
      (∀ k (h : k < blockLen), (s.readAccessory p).appendCrc.bufRead (5 + k) = (s.accessoryBlock p)[k]) ∧
      (s.readAccessory p).appendCrc.bufRead 37 = crc8 s.cfg.crcInit (s.accessoryBlock p) := by
  refine ⟨sameOutside_appendCrc (sameOutside_readAccessory (fun k hk => ?_) p) (by simp) ?_, fun k hk => ?_, ?_⟩
  · simp only [ho.values]
    exact State.indices_bufAddr (Nat.le_add_right 5 k) (by omega)
  · rw [State.readAccessory_cfg, ho.values]
    exact State.indices_bufAddr (by decide) (by decide)
  · have hdata := (s.readAccessory p).appendCrc.bufRead_pakData hk
    simpa only [State.pakData_appendCrc, State.pakData_readAccessory, State.appendCrc_cfg, State.readAccessory_cfg,
      ho.values] using hdata
  · rw [State.bufRead_appendCrc, State.readAccessory_cfg, State.pakData_readAccessory, ho.values]
    rfl

/-- With a backend, one call changes what is not memory. -/
theorem State.readAccessory_of_backend {s : State} {p : Port} (h : pakPresent (s.port p).pak = true) :
    s.readAccessory p = (s.tookBlock p s.pakAddress).storePakData (s.nextBlock p s.pakAddress) := by
  cases hpak : (s.port p).pak with
  | mem | rumble | transfer => simp only [State.readAccessory, hpak]
  | noPak | unknown => simp [hpak, pakPresent] at h

/-- Settles O31: the block delivered is the backend's answer, and its read is the one call. -/
theorem pakReadDeliversTheBackendsBlock : Obligations.PakReadDeliversTheBackendsBlock := by
  intro p s ho hholds hconn hpak
  obtain ⟨hframe, hdata, hcrc⟩ := pakRead_bytes ho p
  rw [State.accessoryBlock_of_backend hpak] at hcrc
  refine ⟨_, exec_pakRead_of_connected hholds hconn, ?_, hframe, fun k hk => ?_, hcrc⟩
  · rw [State.readAccessory_of_backend hpak]; rfl
  · rw [hdata k hk, State.accessoryBlock_of_backend hpak]

/-- Without a backend, the log alone changes beside memory. -/
theorem State.readAccessory_of_noBackend {s : State} {p : Port} (h : pakPresent (s.port p).pak = false) :
    s.readAccessory p = { s with mem := (s.readAccessory p).mem, log := (s.readAccessory p).log } := by
  cases hpak : (s.port p).pak with
  | mem | rumble | transfer => simp [hpak, pakPresent] at h
  | noPak | unknown =>
    simp only [State.readAccessory, hpak, State.storePakData, State.bufWriteList, State.raise, State.logEvent]

/-- Settles O32: the block delivered is the zero block, and the log takes the events of the pak. -/
theorem pakReadWithoutABackendZeroFills : Obligations.PakReadWithoutABackendZeroFills := by
  intro p s ho hholds hconn hpak
  obtain ⟨hframe, hdata, hcrc⟩ := pakRead_bytes ho p
  rw [State.accessoryBlock_of_noBackend hpak] at hcrc
  refine ⟨_, exec_pakRead_of_connected hholds hconn, ?_, s.readAccessory_log p, hframe, fun k hk => ?_, hcrc⟩
  · rw [State.appendCrc, State.readAccessory_of_noBackend hpak]; rfl
  · rw [hdata k hk, State.accessoryBlock_of_noBackend hpak]
    exact Vector.getElem_replicate hk

/-! ### PAK_WRITE -/

theorem exec_pakWrite_of_connected {p : Port} {s : State} (hholds : s.Holds (.pakWrite p))
    (hconn : s.connected p = true) : exec (.pakWrite p) s = .next (s.writeAccessory p).appendCrc :=
  (execPakWrite_next p s _).mpr ⟨hholds, (if_pos hconn).symm⟩

/-- Handing the block on changes the call history and the log alone. -/
theorem State.writeAccessory_rest (s : State) (p : Port) :
    s.writeAccessory p = { s with calls := (s.writeAccessory p).calls, log := (s.writeAccessory p).log } := by
  cases hpak : (s.port p).pak <;> simp only [State.writeAccessory, hpak] <;> rfl

theorem bufRead_pakWrite {s : State} (ho : s.DefaultOffsets) (p : Port) :
    (s.writeAccessory p).appendCrc.bufRead 37 = crc8 s.cfg.crcInit s.pakData := by
  rw [State.bufRead_appendCrc, State.writeAccessory_cfg, State.pakData_writeAccessory, ho.values]
  rfl

/-- Settles O33: handing the block on leaves memory as it is, and the checksum is the one write. -/
theorem pakWriteHandsOnTheHostsBlock : Obligations.PakWriteHandsOnTheHostsBlock := by
  intro p s ho hholds hconn
  refine ⟨_, exec_pakWrite_of_connected hholds hconn, ?_, s.writeAccessory_calls p, s.writeAccessory_log p,
    sameOutside_appendCrc (.of_mem_eq (by simp)) (by simp) ?_, bufRead_pakWrite ho p⟩
  · rw [State.appendCrc, State.writeAccessory_rest]; rfl
  · rw [State.writeAccessory_cfg, ho.values]
    exact State.indices_bufAddr (by decide) (by decide)

/-- Settles O34: both commands deliver DeviceAbsent before they look at the pak. -/
theorem pakCommandsOnADisconnectedPort : Obligations.PakCommandsOnADisconnectedPort := by
  intro i p s hi hholds hdisc
  have hexec : exec i s = .next s.setErrorFlag := by
    rcases hi with rfl | rfl
    · exact (execPakRead_next p s _).mpr ⟨hholds, (if_neg (ne_true_of_eq_false hdisc)).symm⟩
    · exact (execPakWrite_next p s _).mpr ⟨hholds, (if_neg (ne_true_of_eq_false hdisc)).symm⟩
  exact ⟨_, hexec, s.onlyFlagRaised_setErrorFlag⟩

/-- Settles O35: the read delivers the block written, and both checksums are of that block. -/
theorem pakRoundTrip : Obligations.PakRoundTrip := by
  intro p s t u ho hconn hpak hwrite hu hholds haddr hblock
  obtain rfl : t = (s.writeAccessory p).appendCrc :=
    ((execPakWrite_next p s t).mp hwrite).2.trans (if_pos hconn)
  have hcfg : u.cfg = s.cfg := by rw [hu]; simp
  have hports : u.ports = s.ports := by rw [hu]; simp
  have hport : u.port p = s.port p := by rw [State.port, State.port, hports]
  have hcalls : u.calls = s.calls ++ [.writeBlock p s.pakAddress s.pakData] := by
    rw [hu]; simp [State.writeAccessory_calls, hpak]
  have hou : u.DefaultOffsets := by rw [State.DefaultOffsets, hcfg]; exact ho
  have hpaku : pakPresent (u.port p).pak = true := by rw [hport]; exact hpak
  have hdata : u.accessoryBlock p = s.pakData := (State.accessoryBlock_of_backend hpaku).trans hblock
  obtain ⟨-, -, hcrc⟩ := pakRead_bytes hou p
  have hread := exec_pakRead_of_connected hholds (by rw [State.connected, hport]; exact hconn)
  refine ⟨_, hread, by simpa using hdata, ?_, ?_⟩
  · rw [hcrc, hdata, hcfg, bufRead_pakWrite ho]
  · simp [State.readAccessory_calls, hpaku, hcalls, haddr]

end Sys2Proof.Machine

/-! PROOFS. The checksum is linear, and it is polynomial division over GF(2) (40_crc8.md R75). -/

namespace Sys2Proof.Machine

/-! ### One bit step -/

/-- A byte that a bit lets through. -/
def gate (b : Bool) (v : Byte) : Byte := if b then v else 0

theorem gate_xor (a b : Bool) (v : Byte) : gate (a ^^ b) v = gate a v ^^^ gate b v := by
  cases a <;> cases b <;> simp [gate]

/-- The vacated bit 0 takes the input bit, so the OR is an exclusive or. -/
theorem shiftLeft_or_one (c : Byte) : c <<< 1 ||| 1 = c <<< 1 ^^^ 1 := by
  revert c; decide

theorem and_bit7_ne_zero (c : Byte) : (c &&& 0x80 != 0) = c.getLsbD 7 := by
  revert c; decide

/-- One bit step as an exclusive or: the shifted register, the input bit, and the tap where bit 7 falls out (R71). -/
theorem crcBit_eq (c : Byte) (b : Bool) : crcBit c b = c <<< 1 ^^^ gate b 1 ^^^ gate (c.getLsbD 7) crcTap := by
  simp only [crcBit, and_bit7_ne_zero]
  refine congrArg (· ^^^ gate (c.getLsbD 7) crcTap) ?_
  cases b with
  | false => exact BitVec.xor_zero.symm
  | true => exact shiftLeft_or_one c

/-! ### Linearity -/

theorem crcBit_xor (c d : Byte) (a b : Bool) : crcBit (c ^^^ d) (a ^^ b) = crcBit c a ^^^ crcBit d b := by
  simp only [crcBit_eq, BitVec.shiftLeft_xor_distrib, BitVec.getLsbD_xor, gate_xor]
  ac_rfl

theorem foldl_crcBit_xor (f g : Nat → Bool) (ks : List Nat) (c d : Byte) :
    (ks.map fun k => f k ^^ g k).foldl crcBit (c ^^^ d) = (ks.map f).foldl crcBit c ^^^ (ks.map g).foldl crcBit d := by
  induction ks generalizing c d with
  | nil => rfl
  | cons k ks ih => simp only [List.map_cons, List.foldl_cons, crcBit_xor, ih]

theorem crcByte_xor (c d a b : Byte) : crcByte (c ^^^ d) (a ^^^ b) = crcByte c a ^^^ crcByte d b := by
  have hbits : (a ^^^ b).getLsbD = fun k => a.getLsbD k ^^ b.getLsbD k := funext fun k => BitVec.getLsbD_xor
  rw [crcByte, hbits]
  exact foldl_crcBit_xor _ _ _ c d

theorem foldl_crcByte_zipWith_xor (as bs : List Byte) (h : as.length = bs.length) (c d : Byte) :
    (List.zipWith (· ^^^ ·) as bs).foldl crcByte (c ^^^ d) = as.foldl crcByte c ^^^ bs.foldl crcByte d := by
  induction as generalizing bs c d with
  | nil => cases bs with
    | nil => rfl
    | cons b bs => cases h
  | cons a as ih => cases bs with
    | nil => cases h
    | cons b bs => simp only [List.zipWith_cons_cons, List.foldl_cons, crcByte_xor, ih bs (Nat.succ.inj h)]

/-- Settles O38: a bit step is linear, so are a byte and a list of bytes, and the final zero byte is 0 xor 0. -/
theorem checksumIsLinear : Obligations.ChecksumIsLinear := by
  intro x y a b
  have hbytes : (Vector.zipWith (· ^^^ ·) a b).toList ++ [0] =
      List.zipWith (· ^^^ ·) (a.toList ++ [0]) (b.toList ++ [0]) := by
    rw [List.zipWith_append (by simp), Vector.toList_zipWith]
    rfl
  rw [crc8_eq_foldl_crcByte, crc8_eq_foldl_crcByte, crc8_eq_foldl_crcByte, hbytes]
  exact foldl_crcByte_zipWith_xor _ _ (by simp) x y

/-! ### Bytes as polynomials over GF(2) -/

section
open Polynomial

/-- The generator, x^8 + x^7 + x^2 + 1 (R75). -/
noncomputable def crcGenerator : Polynomial (ZMod 2) := X ^ 8 + X ^ 7 + X ^ 2 + 1

theorem bytePolynomial_zero : bytePolynomial 0 = 0 := by
  simp [bytePolynomial]

theorem bytePolynomial_gate (b : Bool) (v : Byte) :
    bytePolynomial (gate b v) = if b then bytePolynomial v else 0 := by
  cases b
  · exact bytePolynomial_zero
  · rfl

/-- In characteristic two, exclusive or is addition. -/
theorem bytePolynomial_xor (a b : Byte) : bytePolynomial (a ^^^ b) = bytePolynomial a + bytePolynomial b := by
  rw [bytePolynomial, bytePolynomial, bytePolynomial, ← Finset.sum_add_distrib]
  refine Finset.sum_congr rfl fun k _ => ?_
  rw [BitVec.getLsbD_xor]
  cases a.getLsbD k.val <;> cases b.getLsbD k.val <;> simp [CharTwo.add_self_eq_zero]

theorem bytePolynomial_one : bytePolynomial 1 = 1 := by
  simp [bytePolynomial]

/-- The tap is the generator without its leading term (R71, R75). -/
theorem bytePolynomial_crcTap : bytePolynomial crcTap + X ^ 8 = crcGenerator := by
  have hbits : ∀ k : Fin 8, crcTap.getLsbD k.val = decide (k = 0 ∨ k = 2 ∨ k = 7) := by decide
  rw [bytePolynomial, Finset.sum_congr rfl fun k _ => by rw [hbits k]]
  simp [Fin.sum_univ_eight, crcGenerator]
  ring

/-- A shift multiplies by x, less the term that falls out of the byte. -/
theorem bytePolynomial_shiftLeft (c : Byte) :
    bytePolynomial (c <<< 1) = X * bytePolynomial c + if c.getLsbD 7 then X ^ 8 else 0 := by
  have hbits : ∀ k : Fin 7, (c <<< 1).getLsbD k.succ.val = c.getLsbD k.castSucc.val := fun k => by
    have hk : k.val < 8 := by omega
    simp [Nat.succ_lt_succ k.isLt, BitVec.getLsbD_eq_getElem hk]
  have hlow : (c <<< 1).getLsbD 0 = false := by simp
  have hlast : X * (if c.getLsbD 7 then X ^ 7 else 0) + (if c.getLsbD 7 then X ^ 8 else 0) =
      (0 : Polynomial (ZMod 2)) := by
    split
    · rw [← pow_succ', CharTwo.add_self_eq_zero]
    · rw [mul_zero, add_zero]
  calc bytePolynomial (c <<< 1)
      = ∑ k : Fin 7, (if c.getLsbD k.castSucc.val then X ^ k.succ.val else 0) := by
        rw [bytePolynomial, Fin.sum_univ_succ]
        simp only [hbits, Fin.val_zero, hlow, Bool.false_eq_true, if_false, zero_add]
    _ = X * ∑ k : Fin 7, (if c.getLsbD k.castSucc.val then X ^ k.castSucc.val else 0) := by
        simp only [Finset.mul_sum, mul_ite, mul_zero, ← pow_succ', Fin.val_succ, Fin.val_castSucc]
    _ = X * bytePolynomial c + if c.getLsbD 7 then X ^ 8 else 0 := by
        rw [bytePolynomial, Fin.sum_univ_castSucc (n := 7), mul_add, add_assoc, Fin.val_last, hlast, add_zero]

theorem degree_bytePolynomial_lt (b : Byte) : (bytePolynomial b).degree < 8 := by
  have hterms : bytePolynomial b = ∑ k : Fin 8, C (if b.getLsbD k.val then 1 else 0) * X ^ k.val :=
    Finset.sum_congr rfl fun k _ => by split <;> simp
  rw [hterms]
  exact degree_sum_fin_lt _

theorem crcGenerator_monic : crcGenerator.Monic := by
  unfold crcGenerator; monicity!

theorem degree_crcGenerator : crcGenerator.degree = 8 := by
  unfold crcGenerator; compute_degree!

/-! ### The checksum as a residue -/

/-- A polynomial's residue by the generator. -/
noncomputable def residue : Polynomial (ZMod 2) →+* AdjoinRoot crcGenerator := AdjoinRoot.mk crcGenerator

theorem residue_crcGenerator : residue crcGenerator = 0 := AdjoinRoot.mk_self

/-- One bit step multiplies by x and adds the input bit, up to a multiple of the generator (R75). -/
theorem residue_crcBit (c : Byte) (b : Bool) :
    residue (bytePolynomial (crcBit c b)) = residue (X * bytePolynomial c + if b then 1 else 0) := by
  have hstep : bytePolynomial (crcBit c b) =
      X * bytePolynomial c + (if b then 1 else 0) + if c.getLsbD 7 then crcGenerator else 0 := by
    rw [crcBit_eq, bytePolynomial_xor, bytePolynomial_xor, bytePolynomial_shiftLeft, bytePolynomial_gate,
      bytePolynomial_gate, bytePolynomial_one, ← bytePolynomial_crcTap]
    split_ifs <;> ring
  rw [hstep, map_add]
  split_ifs <;> simp [residue_crcGenerator]

/-- A byte's eight steps multiply by x^8 and add the byte. -/
theorem residue_crcByte (c b : Byte) :
    residue (bytePolynomial (crcByte c b)) = residue (bytePolynomial c * X ^ 8 + bytePolynomial b) := by
  simp only [crcByte, bitPositions, List.map_cons, List.map_nil, List.foldl_cons, List.foldl_nil, residue_crcBit,
    map_add, map_mul]
  have hbyte : bytePolynomial b = ∑ k : Fin 8, X ^ k.val * (if b.getLsbD k.val then 1 else 0) := by
    simp only [bytePolynomial, mul_boole]
  simp only [hbyte, Fin.sum_univ_eight, map_add, map_mul, map_pow, Fin.coe_ofNat_eq_mod, Nat.reduceMod]
  ring

/-- The polynomial of a list of bytes, the first one highest, above a start value. -/
noncomputable def bytesPolynomial (m : Polynomial (ZMod 2)) (bs : List Byte) : Polynomial (ZMod 2) :=
  bs.foldl (fun m b => m * X ^ 8 + bytePolynomial b) m

theorem bytesPolynomial_concat (m : Polynomial (ZMod 2)) (bs : List Byte) (b : Byte) :
    bytesPolynomial m (bs ++ [b]) = bytesPolynomial m bs * X ^ 8 + bytePolynomial b :=
  List.foldl_concat ..

/-- The register after a list of bytes is the residue of their polynomial. -/
theorem residue_foldl_crcByte (bs : List Byte) (c : Byte) (m : Polynomial (ZMod 2))
    (h : residue (bytePolynomial c) = residue m) :
    residue (bytePolynomial (bs.foldl crcByte c)) = residue (bytesPolynomial m bs) := by
  induction bs generalizing c m with
  | nil => exact h
  | cons b bs ih =>
    refine ih (crcByte c b) (m * X ^ 8 + bytePolynomial b) ?_
    rw [residue_crcByte, map_add, map_add, map_mul, map_mul, h]

/-- The polynomial of a list of bytes, position by position. -/
theorem bytesPolynomial_ofFn {n : Nat} (f : Fin n → Byte) (m : Polynomial (ZMod 2)) :
    bytesPolynomial m (List.ofFn f) =
      m * X ^ (8 * n) + ∑ i : Fin n, bytePolynomial (f i) * X ^ (8 * (n - 1 - i.val)) := by
  induction n generalizing m with
  | zero => simp [bytesPolynomial]
  | succ n ih =>
    have hexp : ∀ i : Fin n, n + 1 - 1 - i.succ.val = n - 1 - i.val := fun i => by simp; omega
    rw [List.ofFn_succ, bytesPolynomial, List.foldl_cons, ← bytesPolynomial, ih, Fin.sum_univ_succ]
    simp only [hexp, Fin.val_zero]
    simp only [Nat.sub_zero, Nat.add_sub_cancel]
    ring

theorem blockPolynomial_eq (block : Block) : blockPolynomial block = bytesPolynomial 0 block.toList := by
  have hlist : block.toList = List.ofFn fun i : Fin blockLen => block[i] := by
    refine List.ext_getElem (by rw [Vector.length_toList, List.length_ofFn]) fun k _ _ => ?_
    rw [Vector.getElem_toList, List.getElem_ofFn, Fin.getElem_fin]
  rw [hlist, bytesPolynomial_ofFn, zero_mul, zero_add]
  rfl

/-- Settles O39: the checksum is congruent to M(x) x^8, its final zero byte being the x^8, and is its remainder because a
byte has degree below 8. -/
theorem checksumIsAPolynomialRemainder : Obligations.ChecksumIsAPolynomialRemainder := by
  intro block
  have hresidue : residue (bytePolynomial (crc8 0 block)) = residue (blockPolynomial block * X ^ 8) := by
    rw [crc8_eq_foldl_crcByte, residue_foldl_crcByte _ 0 0 (by rw [bytePolynomial_zero]), bytesPolynomial_concat,
      bytePolynomial_zero, add_zero, blockPolynomial_eq]
  have hdegree : (bytePolynomial (crc8 0 block)).degree < crcGenerator.degree :=
    degree_crcGenerator ▸ degree_bytePolynomial_lt _
  calc bytePolynomial (crc8 0 block)
      = bytePolynomial (crc8 0 block) %ₘ crcGenerator := ((modByMonic_eq_self_iff crcGenerator_monic).mpr hdegree).symm
    _ = (blockPolynomial block * X ^ 8) %ₘ crcGenerator :=
        modByMonic_eq_of_dvd_sub crcGenerator_monic (AdjoinRoot.mk_eq_mk.mp hresidue)

end

end Sys2Proof.Machine

/-! PROOFS. RTC commands: a port without an RTC (42_rtc_commands.md R100), the type code (R101), the control register
(R103, R112), its lock bits (R113, R114) and the time (R105 to R107). -/

namespace Sys2Proof.Machine

/-! ### A port without an RTC -/

theorem State.onRtc_of_noRtc {s : State} {p : Port} (h : (s.port p).hasRtc = false) (t : State) :
    s.onRtc p t = s.rtcAbsent :=
  if_neg (ne_true_of_eq_false h)

/-- Every RTC command tests for the RTC before all else, so it ends in the absent case (R100). -/
theorem endState_of_noRtc {i : Instr} {p : Port} {s : State} (hi : i.isRtc = true) (hp : i.port? = some p)
    (h : (s.port p).hasRtc = false) : endState i s = s.rtcAbsent := by
  cases i <;> cases hi <;> cases hp <;> exact State.onRtc_of_noRtc h _

/-- Without an RTC no time is read. -/
theorem timeNatural_of_noRtc {i : Instr} {p : Port} {s : State} (hp : i.port? = some p)
    (h : (s.port p).hasRtc = false) : s.TimeNatural i := by
  rintro q rfl
  cases hp
  simp only [State.negativeTime, h, Bool.false_and]

/-- Settles O40: the policy alone decides. -/
theorem rtcCommandsOnAPortWithoutRtc : Obligations.RtcCommandsOnAPortWithoutRtc := by
  intro i p s hi hp hholds hrtc
  have hexec : exec i s = .next s.rtcAbsent :=
    exec_eq_next.mpr ⟨hholds, timeNatural_of_noRtc hp hrtc, (endState_of_noRtc hi hp hrtc).symm⟩
  constructor
  · intro hpolicy
    refine ⟨_, hexec, ?_⟩
    rw [State.rtcAbsent, hpolicy]
    exact s.onlyFlagRaised_setErrorFlag
  · intro hpolicy
    rw [hexec, State.rtcAbsent, hpolicy]

/-! ### RTC_STATUS -/

theorem State.bufRead_answerRtcStatus {s : State} (ho : s.DefaultOffsets) :
    s.answerRtcStatus.bufRead 3 = loByte s.cfg.rtcTypeCode ∧ s.answerRtcStatus.bufRead 4 = hiByte s.cfg.rtcTypeCode ∧
      s.answerRtcStatus.bufRead 5 = s.cfg.rtcStatusOk := by
  simp [State.answerRtcStatus, State.writeTypeCode, State.bufRead_bufWrite, ho.values]

/-- Settles O41: three byte writes, at 3, 4 and 5. -/
theorem rtcStatusAnswers : Obligations.RtcStatusAnswers := by
  intro p s ho hholds hrtc
  have hexec : exec (.rtcStatus p) s = .next s.answerRtcStatus :=
    (execRtcStatus_next p s _).mpr ⟨hholds, (State.onRtc_of_hasRtc hrtc _).symm⟩
  refine ⟨_, hexec, rfl, sameOutside_answerRtcStatus ?_ ?_ ?_, State.bufRead_answerRtcStatus ho⟩
  all_goals rw [ho.values]; exact State.indices_bufAddr (by decide) (by decide)

/-! ### The control register -/

theorem exec_rtcReadB0_of_hasRtc {p : Port} {s : State} (hholds : s.Holds (.rtcReadB0 p))
    (hrtc : (s.port p).hasRtc = true) : exec (.rtcReadB0 p) s = .next (s.answerControl p) :=
  (execRtcReadB0_next p s _).mpr ⟨hholds, (State.onRtc_of_hasRtc hrtc _).symm⟩

theorem State.bufRead_answerControl {s : State} (ho : s.DefaultOffsets) (p : Port) :
    (s.answerControl p).bufRead 4 = loByte (s.rtcAt p).control ∧
      (s.answerControl p).bufRead 5 = hiByte (s.rtcAt p).control ∧
      (s.answerControl p).bufRead 12 = s.cfg.rtcStatusOk := by
  simp [State.answerControl, State.writeRtcOk, State.bufRead_bufWrite, State.bufRead_bufWriteList, ho.values]

/-- Settles O42: the two bytes of the register and the success byte are all that is written. -/
theorem rtcReadOfBlock0ShowsControl : Obligations.RtcReadOfBlock0ShowsControl := by
  intro p s ho hholds hrtc
  refine ⟨_, exec_rtcReadB0_of_hasRtc hholds hrtc, rfl, sameOutside_answerControl (fun k hk => .inl ?_) (.inr ?_) p,
    State.bufRead_answerControl ho p⟩
  · simp only [ho.values]
    exact State.indices_bufAddr (Nat.le_add_right 4 k) (by omega)
  · rw [ho.values]
    exact State.indices_bufAddr (by decide) (by decide)

theorem exec_rtcWriteB0_of_hasRtc {p : Port} {s : State} (hholds : s.Holds (.rtcWriteB0 p))
    (hrtc : (s.port p).hasRtc = true) : exec (.rtcWriteB0 p) s = .next (s.loadControl p) :=
  (execRtcWriteB0_next p s _).mpr ⟨hholds, (State.onRtc_of_hasRtc hrtc _).symm⟩

theorem State.rtcAt_loadControl (s : State) (p : Port) :
    (s.loadControl p).rtcAt p = { s.rtcAt p with control := s.controlOperand } :=
  State.rtcAt_of_set (State.loadControl_rtc s p)

theorem State.controlOperand_bytes {s : State} (ho : s.DefaultOffsets) :
    loByte s.controlOperand = s.bufRead 4 ∧ hiByte s.controlOperand = s.bufRead 5 := by
  simp [State.controlOperand, ho.values]

/-- Settles O43: the register is the operand's two bytes, and the success byte is the one write. -/
theorem rtcWriteOfBlock0SetsControl : Obligations.RtcWriteOfBlock0SetsControl := by
  intro p s ho hholds hrtc
  obtain ⟨hlo, hhi⟩ := State.controlOperand_bytes ho
  have hst : (s.loadControl p).bufRead 12 = s.cfg.rtcStatusOk := by
    rw [State.loadControl, State.writeRtcOk, State.bufRead_bufWrite, State.setControl_cfg, ho.values]
    rfl
  refine ⟨_, exec_rtcWriteB0_of_hasRtc hholds hrtc, rfl, ?_, ?_, ?_, ?_, fun q hq => ?_, sameOutside_loadControl ?_ p, hst⟩
  · rw [State.rtcAt_loadControl]; exact hlo
  · rw [State.rtcAt_loadControl]; exact hhi
  · rw [State.rtcAt_loadControl]
  · rw [State.rtcAt_loadControl]
  · exact State.rtcAt_of_set_other (State.loadControl_rtc s p) hq
  · rw [ho.values]
    exact State.indices_bufAddr (by decide) (by decide)

/-- What a control write leaves for the commands after it, in whatever buffer: the session, and the register's bytes. -/
theorem control_after_write {p : Port} {s t u : State} (ho : s.DefaultOffsets) (hrtc : (s.port p).hasRtc = true)
    (hexec : exec (.rtcWriteB0 p) s = .next t) (hu : u = { t with mem := u.mem, lent := u.lent }) :
    u.DefaultOffsets ∧ (u.port p).hasRtc = true ∧ loByte (u.rtcAt p).control = s.bufRead 4 ∧
      hiByte (u.rtcAt p).control = s.bufRead 5 := by
  obtain ⟨hcfg, hports⟩ := exec_keeps_session hexec
  have hcfgu : u.cfg = s.cfg := by rw [hu]; exact hcfg
  have hportu : u.port p = s.port p := by rw [State.port, State.port, hu]; simp only [hports]
  obtain rfl : t = s.loadControl p := by
    rw [exec_rtcWriteB0_of_hasRtc (exec_holds _ s t hexec) hrtc] at hexec
    cases hexec
    rfl
  have hcontrol : (u.rtcAt p).control = s.controlOperand := by
    have hrtcu : u.rtc = (s.loadControl p).rtc := by rw [hu]
    rw [State.rtcAt_congr hrtcu, State.rtcAt_loadControl]
  rw [State.DefaultOffsets, hcfgu, hportu, hcontrol]
  exact ⟨ho, hrtc, State.controlOperand_bytes ho⟩

/-- Settles O44: the read shows the register the write left, whatever buffer came between. -/
theorem controlWrittenReadsBack : Obligations.ControlWrittenReadsBack := by
  intro p s t u ho hrtc hexec hu hholds
  obtain ⟨hou, hrtcu, hlo, hhi⟩ := control_after_write ho hrtc hexec hu
  obtain ⟨h4, h5, -⟩ := State.bufRead_answerControl hou p
  exact ⟨_, exec_rtcReadB0_of_hasRtc hholds hrtcu, h4.trans hlo, h5.trans hhi⟩

theorem getLsbD_loByte (v : BitVec 16) {k : Nat} (hk : k < 8) : (loByte v).getLsbD k = v.getLsbD k := by
  simp only [loByte, BitVec.getLsbD_extractLsb', hk, decide_true, Bool.true_and, Nat.zero_add]

/-- Settles O48: the low byte written is the low byte of the register, whose bits 0 and 1 lock (O47). -/
theorem lockBitsProtectTheirBlock : Obligations.LockBitsProtectTheirBlock := by
  intro p s t u ho hrtc hexec hu
  obtain ⟨-, hrtcu, hlo, -⟩ := control_after_write ho hrtc hexec hu
  obtain ⟨hblock1, hblock2⟩ := rtcWritesOfBlocks1And2 p u hrtcu
  constructor
  · intro hbit hholds
    exact (hblock1 hholds).1 (by rw [← getLsbD_loByte _ (by decide), hlo, hbit])
  · intro hbit hholds
    exact (hblock2 hholds).1 (by rw [← getLsbD_loByte _ (by decide), hlo, hbit])

/-! ### The time -/

theorem State.rtcAt_readTime (s : State) (p : Port) : (s.readTime p).rtcAt p = s.advancedRtc p :=
  State.rtcAt_of_set (State.readTime_rtc s p)

/-- The eight time bytes and the success byte under the default offsets. -/
theorem State.bufRead_readTime {s : State} (ho : s.DefaultOffsets) (p : Port) :
    (∀ k (h : k < 8), (s.readTime p).bufRead (4 + k) = (timeBytes (s.timeFields p))[k]'h) ∧
      (s.readTime p).bufRead 12 = s.cfg.rtcStatusOk := by
  constructor
  · intro k hk
    have hlen : (timeBytes (s.timeFields p)).length = 8 := rfl
    simp only [State.readTime, State.writeRtcOk, State.bufRead_bufWrite, State.bufRead_bufWriteList,
      State.bufWriteList_cfg, State.setRtc_cfg, State.tookTime_cfg, ho.values]
    rw [if_neg (by omega), dif_pos ⟨by omega, by omega⟩]
    simp only [Nat.add_sub_cancel_left]
    rfl
  · rw [State.readTime, State.writeRtcOk, State.bufRead_bufWrite, State.bufWriteList_cfg, State.setRtc_cfg,
      State.tookTime_cfg, ho.values]
    rfl

/-- Settles O49: the clock is advanced once, and the eight bytes shown are those of its calendar fields. -/
theorem rtcReadOfBlock2TellsTheTime : Obligations.RtcReadOfBlock2TellsTheTime := by
  intro p s ho hholds hrtc now clock f hyear
  have hnat : s.negativeTime p = false := by
    rw [← Bool.not_eq_true, State.negativeTime_eq_true]
    rintro ⟨-, hneg⟩
    exact absurd hneg (not_lt.mpr hyear)
  have hexec : exec (.rtcReadB2 p) s = .next (s.readTime p) :=
    (execRtcReadB2_next p s _).mpr ⟨hholds, hnat, (State.onRtc_of_hasRtc hrtc _).symm⟩
  have hlow : (f.year % 100).toNat = f.year.toNat % 100 := by omega
  have hhigh : (f.year / 100).toNat = f.year.toNat / 100 := by omega
  obtain ⟨htime, hst⟩ := State.bufRead_readTime ho p
  refine ⟨_, hexec, rfl, s.rtcAt_readTime p, fun q hq => State.rtcAt_of_set_other (State.readTime_rtc s p) hq,
    sameOutside_readTime (fun k hk => ?_) ?_ p, htime 0 (by decide), htime 1 (by decide), htime 2 (by decide),
    htime 3 (by decide), htime 4 (by decide), htime 5 (by decide), ?_, ?_, hst⟩
  · simp only [ho.values]
    exact State.indices_bufAddr (Nat.le_add_right 4 k) (by omega)
  · rw [ho.values]
    exact State.indices_bufAddr (by decide) (by decide)
  · rw [hlow]; exact htime 6 (by decide)
  · rw [hhigh]; exact htime 7 (by decide)

/-- Settles O50: the read leaves the advanced registers, and an advance from the last sample ends at the new one. -/
theorem clockFollowsTheWallClock : Obligations.ClockFollowsTheWallClock := by
  intro p s t hrtc hsampled hexec
  obtain ⟨-, -, rfl⟩ := (execRtcReadB2_next p s t).mp hexec
  rw [State.onRtc_of_hasRtc hrtc, State.rtcAt_readTime]
  exact ⟨Rtc.advance_sampled hsampled _, rfl⟩

end Sys2Proof.Machine

/-! PROOFS. The default calendar (42_rtc_commands.md R109), and the reads of the time it refuses (R108; I20). -/

namespace Sys2Proof.Machine

/-! ### The year of an era

An era is 400 years of 146097 days; its years begin on 1 March, so that a leap day is the last of its year. -/

/-- The March-based year a day of the era lies in, as `civilOfDays` computes it. -/
def yearOfEra (doe : Nat) : Nat := (doe - doe / 1460 + doe / 36524 - doe / 146096) / 365

/-- The days of the era before a March-based year. -/
def yearStart (y : Nat) : Nat := 365 * y + y / 4 - y / 100

/-- A day of an era lies in one of its centuries, in a run of four years of it, in a year of that, counted from 1 March. The
leap day, if any, is a year's last. -/
theorem exists_eraDate {doe : Nat} (h : doe < 146097) :
    ∃ c q a d, c < 4 ∧ q < 25 ∧ a < 4 ∧ d < 366 ∧ doe = 36524 * c + 1461 * q + 365 * a + d ∧
      (d = 365 → a = 3 ∧ (q = 24 → c = 3)) := by
  have hc : ∃ c r, c < 4 ∧ doe = 36524 * c + r ∧ r ≤ 36524 ∧ (r = 36524 → c = 3) := by
    by_cases hlast : doe = 146096
    · exact ⟨3, 36524, by omega⟩
    · exact ⟨doe / 36524, doe % 36524, by omega⟩
  obtain ⟨c, r, hc, rfl, hr, hrlast⟩ := hc
  have ha : ∃ a d, a < 4 ∧ r % 1461 = 365 * a + d ∧ d ≤ 365 ∧ (d = 365 → a = 3) := by
    by_cases hlast : r % 1461 = 1460
    · exact ⟨3, 365, by omega⟩
    · exact ⟨r % 1461 / 365, r % 1461 % 365, by omega⟩
  obtain ⟨a, d, ha, hd, hd365, hdlast⟩ := ha
  exact ⟨c, r / 1461, a, d, by omega⟩

/-- The first correction: one day taken out for each 1460 leaves whole years of 365 days and a rest. -/
theorem day_sub_fourYearRuns {doe c q a d : Nat} (hdoe : doe = 36524 * c + 1461 * q + 365 * a + d) (hc : c < 4) (hq : q < 25)
    (ha : a < 4) (hd : d < 366) (hleap : d = 365 → a = 3) :
    ∃ e, doe - doe / 1460 = 36499 * c + 1460 * q + 365 * a + e ∧ e < 365 := by
  by_cases hcarry : 1460 ≤ 24 * c + q + 365 * a + d
  · refine ⟨d - 1, ?_, by omega⟩
    rw [show doe / 1460 = 25 * c + q + 1 by omega]
    omega
  · refine ⟨d, ?_, by omega⟩
    rw [show doe / 1460 = 25 * c + q by omega]
    omega

/-- The other two corrections together put one day back for each century. -/
theorem day_div_century {doe c q a d : Nat} (hdoe : doe = 36524 * c + 1461 * q + 365 * a + d) (hc : c < 4) (hq : q < 25)
    (ha : a < 4) (hd : d < 366) (hleap : d = 365 → a = 3 ∧ (q = 24 → c = 3)) :
    doe / 36524 = c + doe / 146096 := by
  by_cases hlast : doe = 146096
  · subst hlast; omega
  · rw [show doe / 146096 = 0 by omega]
    omega

theorem yearOfEra_eq {doe c q a d : Nat} (hdoe : doe = 36524 * c + 1461 * q + 365 * a + d) (hc : c < 4) (hq : q < 25)
    (ha : a < 4) (hd : d < 366) (hleap : d = 365 → a = 3 ∧ (q = 24 → c = 3)) :
    yearOfEra doe = 100 * c + 4 * q + a := by
  obtain ⟨e, he, hlt⟩ := day_sub_fourYearRuns hdoe hc hq ha hd fun h => (hleap h).1
  rw [yearOfEra, he, day_div_century hdoe hc hq ha hd hleap]
  omega

theorem yearStart_eq {c q a : Nat} (hq : q < 25) (ha : a < 4) :
    yearStart (100 * c + 4 * q + a) = 36524 * c + 1461 * q + 365 * a := by
  unfold yearStart
  omega

/-! ### Leap years and the first of January -/

/-- The days a year has above 365. -/
def leapDays (y : Int) : Nat := if leapYear y then 1 else 0

theorem leapDays_eq (y : Int) : leapDays y = if y % 4 = 0 ∧ y % 100 ≠ 0 ∨ y % 400 = 0 then 1 else 0 := by
  simp [leapDays, leapYear]

theorem leapDays_le_one (y : Int) : leapDays y ≤ 1 := by
  unfold leapDays
  split <;> omega

theorem daysBeforeYear_succ (y : Int) : daysBeforeYear (y + 1) = daysBeforeYear y + 365 + leapDays y := by
  rw [leapDays_eq, daysBeforeYear, daysBeforeYear]
  split <;> omega

theorem daysBeforeYear_mono {y z : Int} (h : y ≤ z) : daysBeforeYear y ≤ daysBeforeYear z := by
  unfold daysBeforeYear
  omega

/-- The days to a March-based year of an era are those to the next first of January. -/
theorem daysBeforeYear_era (e : Int) {y : Nat} (hy : y < 400) :
    daysBeforeYear (e * 400 + y + 1) = 146097 * e + yearStart y := by
  unfold daysBeforeYear yearStart
  omega

theorem leapDays_era (e : Int) (y : Nat) : leapDays (e * 400 + y + 1) = leapDays (y + 1) := by
  rw [leapDays_eq, leapDays_eq]
  congr 1
  simp only [eq_iff_iff]
  omega

/-- The year found for a day of an era takes that day in, its leap day included. -/
theorem yearOfEra_spec {doe : Nat} (h : doe < 146097) :
    yearOfEra doe < 400 ∧ yearStart (yearOfEra doe) ≤ doe ∧
      doe - yearStart (yearOfEra doe) < 365 + leapDays (yearOfEra doe + 1) := by
  obtain ⟨c, q, a, d, hc, hq, ha, hd, hdoe, hleap⟩ := exists_eraDate h
  rw [yearOfEra_eq hdoe hc hq ha hd hleap, yearStart_eq hq ha, leapDays_eq]
  refine ⟨by omega, by omega, ?_⟩
  split <;> omega

/-! ### Months -/

/-- A date names the `n`-th day of the proleptic Gregorian calendar. -/
structure IsDate (n : Int) (y : Int) (m d : Nat) : Prop where
  month_pos : 1 ≤ m
  month_le : m ≤ 12
  day_pos : 1 ≤ d
  day_le : d ≤ (monthLengths y).getD (m - 1) 0
  days : daysBeforeYear y + (((monthLengths y).take (m - 1)).sum : Nat) + d = n

/-- Year, month and day of a day of a March-based year, as `civilOfDays` computes them. -/
def civilOfMarchDate (y : Int) (doy : Nat) : Int × Nat × Nat :=
  let mp := (5 * doy + 2) / 153
  let day := doy - (153 * mp + 2) / 5 + 1
  let month := if mp < 10 then mp + 3 else mp - 9
  (y + (if month ≤ 2 then 1 else 0), month, day)

theorem civilOfDays_eq (days : Int) :
    civilOfDays days =
      civilOfMarchDate ((days + 719468) / 146097 * 400 + yearOfEra ((days + 719468) % 146097).toNat)
        (((days + 719468) % 146097).toNat - yearStart (yearOfEra ((days + 719468) % 146097).toNat)) :=
  rfl

/-- The days of a year before a month from March on: those of January and February, and five months in 153 days. -/
theorem sum_take_monthLengths (y : Int) {k : Nat} (hlo : 2 ≤ k) (hhi : k < 12) :
    ((monthLengths y).take k).sum = 59 + leapDays y + (153 * (k - 2) + 2) / 5 := by
  unfold monthLengths leapDays
  interval_cases k <;> cases leapYear y <;> rfl

/-- The days of a year before January and before February. -/
theorem sum_take_monthLengths_of_lt (y : Int) {k : Nat} (hk : k < 2) : ((monthLengths y).take k).sum = 31 * k := by
  interval_cases k <;> rfl

/-- From March to December: the year's own January and February come before. -/
theorem isDate_of_march {y : Int} {doy mp : Nat} (hmp : (5 * doy + 2) / 153 = mp) (h : mp < 10) :
    IsDate (daysBeforeYear (y + 1) + doy - 305) y (mp + 3) (doy - (153 * mp + 2) / 5 + 1) := by
  have hsucc := daysBeforeYear_succ y
  refine ⟨by omega, by omega, by omega, ?_, ?_⟩
  · interval_cases mp <;> simp [monthLengths] <;> omega
  · rw [sum_take_monthLengths y (by omega) (by omega)]
    omega

/-- January and February, of the year after. -/
theorem isDate_of_january {y : Int} {doy mp : Nat} (hmp : (5 * doy + 2) / 153 = mp) (h : 10 ≤ mp)
    (hdoy : doy < 365 + leapDays y) :
    IsDate (daysBeforeYear y + doy - 305) y (mp - 9) (doy - (153 * mp + 2) / 5 + 1) := by
  have hle : mp ≤ 11 := by
    have := leapDays_le_one y
    omega
  unfold leapDays at hdoy
  refine ⟨by omega, by omega, by omega, ?_, ?_⟩
  · interval_cases mp <;> cases hleap : leapYear y <;> simp [monthLengths, hleap] at hdoy ⊢ <;> omega
  · rw [sum_take_monthLengths_of_lt y (by omega)]
    omega

theorem isDate_civilOfMarchDate {y : Int} {doy : Nat} (hdoy : doy < 365 + leapDays (y + 1)) :
    IsDate (daysBeforeYear (y + 1) + doy - 305) (civilOfMarchDate y doy).1 (civilOfMarchDate y doy).2.1
      (civilOfMarchDate y doy).2.2 := by
  generalize hmp : (5 * doy + 2) / 153 = mp
  by_cases h : mp < 10
  · have hmonth : ¬ mp + 3 ≤ 2 := by omega
    simp only [civilOfMarchDate, hmp, if_pos h, if_neg hmonth, add_zero]
    exact isDate_of_march hmp h
  · have hmonth : mp - 9 ≤ 2 := by
      have := leapDays_le_one (y + 1)
      omega
    simp only [civilOfMarchDate, hmp, if_neg h, if_pos hmonth]
    exact isDate_of_january hmp (by omega) hdoy

/-- `civilOfDays` names the day it was given, 1970-01-01 being the 719163rd (R109). -/
theorem isDate_civilOfDays (days : Int) :
    IsDate (719163 + days) (civilOfDays days).1 (civilOfDays days).2.1 (civilOfDays days).2.2 := by
  have hdoe : ((days + 719468) % 146097).toNat < 146097 := by omega
  obtain ⟨hy, hstart, hdoy⟩ := yearOfEra_spec hdoe
  rw [← leapDays_era ((days + 719468) / 146097)] at hdoy
  have hdate := isDate_civilOfMarchDate hdoy
  rw [daysBeforeYear_era _ hy, ← civilOfDays_eq] at hdate
  convert hdate using 1
  omega

/-- A date lies within its year. -/
theorem IsDate.within_year {n y : Int} {m d : Nat} (h : IsDate n y m d) :
    daysBeforeYear y < n ∧ n ≤ daysBeforeYear (y + 1) := by
  obtain ⟨hm, hm', hd, hd', hdays⟩ := h
  have hsucc := daysBeforeYear_succ y
  have hin : ((monthLengths y).take (m - 1)).sum + d ≤ 365 + leapDays y := by
    unfold leapDays
    interval_cases m <;> cases hleap : leapYear y <;> simp [monthLengths, hleap] at hd' ⊢ <;> omega
  omega

/-! ### The default calendar -/

/-- Settles O52: the date by `isDate_civilOfDays`, the time of day by division. -/
theorem defaultCalendarIsProlepticGregorian : Obligations.DefaultCalendarIsProlepticGregorian := by
  intro t f y
  obtain ⟨hm, hm', hd, hd', hdays⟩ := isDate_civilOfDays (t / 86400)
  have hy : y = (civilOfDays (t / 86400)).1 := sub_add_cancel _ _
  rw [← hy] at hd' hdays
  refine ⟨Nat.mod_lt _ (by decide), Nat.mod_lt _ (by decide), ?_, ?_, ?_, hd, hd', hdays, ?_, ?_⟩
  all_goals simp only [f, utcCalendar]; omega

/-- The first of January 1900 is 25567 days before 1970. -/
theorem utcCalendar_year_neg (t : Int) : (utcCalendar t).year < 0 ↔ t < -2208988800 := by
  obtain ⟨hafter, hbefore⟩ := (isDate_civilOfDays (t / 86400)).within_year
  have h1900 : daysBeforeYear 1900 = 693595 := by decide
  simp only [utcCalendar]
  generalize (civilOfDays (t / 86400)).1 = y at hafter hbefore ⊢
  rcases lt_or_ge y 1900 with hy | hy
  · have hle := daysBeforeYear_mono (Int.add_one_le_of_lt hy)
    omega
  · have hle := daysBeforeYear_mono hy
    omega

/-- Settles O53: the time read is negative where its year is. -/
theorem rtcReadOfBlock2RefusesNegativeYears : Obligations.RtcReadOfBlock2RefusesNegativeYears := by
  refine ⟨fun p s hholds hrtc hyear => ?_, utcCalendar_year_neg⟩
  exact exec_of_negative hholds (not_timeNatural.mpr ⟨p, rfl, State.negativeTime_eq_true.mpr ⟨hrtc, hyear⟩⟩)

end Sys2Proof.Machine
